-- ==== Sys2Proof/Word.lean ====
section
/-! DEFINITION. The word types of the block (spec R8, D5): every value is an unsigned bit vector of a
stated width. -/

namespace Sys2Proof

/-- A 32-bit address, register or response (R8, D5). -/
abbrev Word := BitVec 32

/-- A 16-bit flash or option-byte cell: the unit of programming (R6, `CELL_BITS`). -/
abbrev Half := BitVec 16

/-- A byte. -/
abbrev Byte := BitVec 8

/-- A 72-bit command word (R91). -/
abbrev CommandWord := BitVec 72

/-- `PAGE_SIZE` in bytes (R6). -/
def pageSize : Nat := 64

/-- Cells in a page: 32 of 16 bits (R33). -/
def pageCells : Nat := 32

/-- `ERASED16`, "all bits set" (R6). -/
def erased16 : Half := 0xFFFF#16

end Sys2Proof
end

