-- ==== Sys2Proof/Syntax.lean ====
section
/-! DEFINITION. The command set (spec R93): forty commands, one constructor of `Instr` per row of
`opcode_table.json`, and their names `Op` (what `SEQ_OP` holds, R20). Every command word carries both
operand fields, whatever its format (R91, R94), so every constructor carries `a` and `d`. -/

namespace Sys2Proof

/-- The names of the forty commands (R93). -/
inductive Op where
  | rdStatr
  | wrStatr
  | rdCtlr
  | wrCtlr
  | wrKeyr
  | wrObkeyr
  | wrAddr
  | ld8
  | ld16
  | st16
  | ldob
  | stob
  | calcAddr
  | unlock
  | unlockOb
  | lock
  | isBusy
  | isDone
  | isWperr
  | clearDone
  | waitNotBusy
  | waitDone
  | erasePage
  | program16
  | program8x2
  | programFloat
  | read16
  | read8
  | readFloat
  | decodeCell
  | encodeCell
  | readUser
  | readRdpr
  | readWrpr1
  | readWrpr0
  | readData1
  | readData0
  | readData16
  | writeOb16
  | writeOb8x2
  deriving DecidableEq, Repr

/-- The forty commands with their two operand fields `a` (bits 63:32) and `d` (bits 31:0) (R91).
A field the format does not read is carried all the same: `x[RA] <- a` and `x[RD] <- d` hold "for
every command, whatever its format" (R94). -/
inductive Instr where
  /-- `RD_STATR`, opcode 0x01, format N (R120). -/
  | rdStatr (a d : Word)
  /-- `WR_STATR`, opcode 0x02, format D (R121). -/
  | wrStatr (a d : Word)
  /-- `RD_CTLR`, opcode 0x03, format N (R122). -/
  | rdCtlr (a d : Word)
  /-- `WR_CTLR`, opcode 0x04, format D (R123). -/
  | wrCtlr (a d : Word)
  /-- `WR_KEYR`, opcode 0x05, format D (R124). -/
  | wrKeyr (a d : Word)
  /-- `WR_OBKEYR`, opcode 0x06, format D (R125). -/
  | wrObkeyr (a d : Word)
  /-- `WR_ADDR`, opcode 0x07, format D (R126). -/
  | wrAddr (a d : Word)
  /-- `LD8`, opcode 0x08, format A (R127). -/
  | ld8 (a d : Word)
  /-- `LD16`, opcode 0x09, format A (R128). -/
  | ld16 (a d : Word)
  /-- `ST16`, opcode 0x0A, format AD (R129). -/
  | st16 (a d : Word)
  /-- `LDOB`, opcode 0x0B, format A (R130). -/
  | ldob (a d : Word)
  /-- `STOB`, opcode 0x0C, format AD (R131). -/
  | stob (a d : Word)
  /-- `CALC_ADDR`, opcode 0x10, format A (R150). -/
  | calcAddr (a d : Word)
  /-- `UNLOCK`, opcode 0x20, format N (R155). -/
  | unlock (a d : Word)
  /-- `UNLOCK_OB`, opcode 0x21, format N (R156). -/
  | unlockOb (a d : Word)
  /-- `LOCK`, opcode 0x22, format N (R157). -/
  | lock (a d : Word)
  /-- `IS_BUSY`, opcode 0x30, format N (R165). -/
  | isBusy (a d : Word)
  /-- `IS_DONE`, opcode 0x31, format N (R166). -/
  | isDone (a d : Word)
  /-- `IS_WPERR`, opcode 0x32, format N (R167). -/
  | isWperr (a d : Word)
  /-- `CLEAR_DONE`, opcode 0x33, format N (R168). -/
  | clearDone (a d : Word)
  /-- `WAIT_NOT_BUSY`, opcode 0x34, format N (R169). -/
  | waitNotBusy (a d : Word)
  /-- `WAIT_DONE`, opcode 0x35, format N (R170). -/
  | waitDone (a d : Word)
  /-- `ERASE_PAGE`, opcode 0x40, format A (R175). -/
  | erasePage (a d : Word)
  /-- `PROGRAM_16`, opcode 0x50, format AD (R180). -/
  | program16 (a d : Word)
  /-- `PROGRAM_8X2`, opcode 0x51, format AD (R181). -/
  | program8x2 (a d : Word)
  /-- `PROGRAM_FLOAT`, opcode 0x52, format AD (R182). -/
  | programFloat (a d : Word)
  /-- `READ_16`, opcode 0x60, format A (R190). -/
  | read16 (a d : Word)
  /-- `READ_8`, opcode 0x61, format A (R191). -/
  | read8 (a d : Word)
  /-- `READ_FLOAT`, opcode 0x62, format A (R192). -/
  | readFloat (a d : Word)
  /-- `DECODE_CELL`, opcode 0x70, format D (R195). -/
  | decodeCell (a d : Word)
  /-- `ENCODE_CELL`, opcode 0x71, format D (R196). -/
  | encodeCell (a d : Word)
  /-- `READ_USER`, opcode 0x72, format N (R197). -/
  | readUser (a d : Word)
  /-- `READ_RDPR`, opcode 0x73, format N (R198). -/
  | readRdpr (a d : Word)
  /-- `READ_WRPR1`, opcode 0x74, format N (R199). -/
  | readWrpr1 (a d : Word)
  /-- `READ_WRPR0`, opcode 0x75, format N (R200). -/
  | readWrpr0 (a d : Word)
  /-- `READ_DATA1`, opcode 0x76, format N (R201). -/
  | readData1 (a d : Word)
  /-- `READ_DATA0`, opcode 0x77, format N (R202). -/
  | readData0 (a d : Word)
  /-- `READ_DATA16`, opcode 0x78, format N (R203). -/
  | readData16 (a d : Word)
  /-- `WRITE_OB_16`, opcode 0x79, format D (R204). -/
  | writeOb16 (a d : Word)
  /-- `WRITE_OB_8X2`, opcode 0x7A, format D (R205). -/
  | writeOb8x2 (a d : Word)
  deriving DecidableEq, Repr

/-- The name of a command. -/
def Instr.op : Instr → Op
  | .rdStatr _ _ => .rdStatr
  | .wrStatr _ _ => .wrStatr
  | .rdCtlr _ _ => .rdCtlr
  | .wrCtlr _ _ => .wrCtlr
  | .wrKeyr _ _ => .wrKeyr
  | .wrObkeyr _ _ => .wrObkeyr
  | .wrAddr _ _ => .wrAddr
  | .ld8 _ _ => .ld8
  | .ld16 _ _ => .ld16
  | .st16 _ _ => .st16
  | .ldob _ _ => .ldob
  | .stob _ _ => .stob
  | .calcAddr _ _ => .calcAddr
  | .unlock _ _ => .unlock
  | .unlockOb _ _ => .unlockOb
  | .lock _ _ => .lock
  | .isBusy _ _ => .isBusy
  | .isDone _ _ => .isDone
  | .isWperr _ _ => .isWperr
  | .clearDone _ _ => .clearDone
  | .waitNotBusy _ _ => .waitNotBusy
  | .waitDone _ _ => .waitDone
  | .erasePage _ _ => .erasePage
  | .program16 _ _ => .program16
  | .program8x2 _ _ => .program8x2
  | .programFloat _ _ => .programFloat
  | .read16 _ _ => .read16
  | .read8 _ _ => .read8
  | .readFloat _ _ => .readFloat
  | .decodeCell _ _ => .decodeCell
  | .encodeCell _ _ => .encodeCell
  | .readUser _ _ => .readUser
  | .readRdpr _ _ => .readRdpr
  | .readWrpr1 _ _ => .readWrpr1
  | .readWrpr0 _ _ => .readWrpr0
  | .readData1 _ _ => .readData1
  | .readData0 _ _ => .readData0
  | .readData16 _ _ => .readData16
  | .writeOb16 _ _ => .writeOb16
  | .writeOb8x2 _ _ => .writeOb8x2

/-- The operand field `a` of a command. -/
def Instr.a : Instr → Word
  | .rdStatr a _ => a
  | .wrStatr a _ => a
  | .rdCtlr a _ => a
  | .wrCtlr a _ => a
  | .wrKeyr a _ => a
  | .wrObkeyr a _ => a
  | .wrAddr a _ => a
  | .ld8 a _ => a
  | .ld16 a _ => a
  | .st16 a _ => a
  | .ldob a _ => a
  | .stob a _ => a
  | .calcAddr a _ => a
  | .unlock a _ => a
  | .unlockOb a _ => a
  | .lock a _ => a
  | .isBusy a _ => a
  | .isDone a _ => a
  | .isWperr a _ => a
  | .clearDone a _ => a
  | .waitNotBusy a _ => a
  | .waitDone a _ => a
  | .erasePage a _ => a
  | .program16 a _ => a
  | .program8x2 a _ => a
  | .programFloat a _ => a
  | .read16 a _ => a
  | .read8 a _ => a
  | .readFloat a _ => a
  | .decodeCell a _ => a
  | .encodeCell a _ => a
  | .readUser a _ => a
  | .readRdpr a _ => a
  | .readWrpr1 a _ => a
  | .readWrpr0 a _ => a
  | .readData1 a _ => a
  | .readData0 a _ => a
  | .readData16 a _ => a
  | .writeOb16 a _ => a
  | .writeOb8x2 a _ => a

/-- The operand field `d` of a command. -/
def Instr.d : Instr → Word
  | .rdStatr _ d => d
  | .wrStatr _ d => d
  | .rdCtlr _ d => d
  | .wrCtlr _ d => d
  | .wrKeyr _ d => d
  | .wrObkeyr _ d => d
  | .wrAddr _ d => d
  | .ld8 _ d => d
  | .ld16 _ d => d
  | .st16 _ d => d
  | .ldob _ d => d
  | .stob _ d => d
  | .calcAddr _ d => d
  | .unlock _ d => d
  | .unlockOb _ d => d
  | .lock _ d => d
  | .isBusy _ d => d
  | .isDone _ d => d
  | .isWperr _ d => d
  | .clearDone _ d => d
  | .waitNotBusy _ d => d
  | .waitDone _ d => d
  | .erasePage _ d => d
  | .program16 _ d => d
  | .program8x2 _ d => d
  | .programFloat _ d => d
  | .read16 _ d => d
  | .read8 _ d => d
  | .readFloat _ d => d
  | .decodeCell _ d => d
  | .encodeCell _ d => d
  | .readUser _ d => d
  | .readRdpr _ d => d
  | .readWrpr1 _ d => d
  | .readWrpr0 _ d => d
  | .readData1 _ d => d
  | .readData0 _ d => d
  | .readData16 _ d => d
  | .writeOb16 _ d => d
  | .writeOb8x2 _ d => d

/-- The command with a given name and operand fields. -/
def Op.instr : Op → Word → Word → Instr
  | .rdStatr, a, d => .rdStatr a d
  | .wrStatr, a, d => .wrStatr a d
  | .rdCtlr, a, d => .rdCtlr a d
  | .wrCtlr, a, d => .wrCtlr a d
  | .wrKeyr, a, d => .wrKeyr a d
  | .wrObkeyr, a, d => .wrObkeyr a d
  | .wrAddr, a, d => .wrAddr a d
  | .ld8, a, d => .ld8 a d
  | .ld16, a, d => .ld16 a d
  | .st16, a, d => .st16 a d
  | .ldob, a, d => .ldob a d
  | .stob, a, d => .stob a d
  | .calcAddr, a, d => .calcAddr a d
  | .unlock, a, d => .unlock a d
  | .unlockOb, a, d => .unlockOb a d
  | .lock, a, d => .lock a d
  | .isBusy, a, d => .isBusy a d
  | .isDone, a, d => .isDone a d
  | .isWperr, a, d => .isWperr a d
  | .clearDone, a, d => .clearDone a d
  | .waitNotBusy, a, d => .waitNotBusy a d
  | .waitDone, a, d => .waitDone a d
  | .erasePage, a, d => .erasePage a d
  | .program16, a, d => .program16 a d
  | .program8x2, a, d => .program8x2 a d
  | .programFloat, a, d => .programFloat a d
  | .read16, a, d => .read16 a d
  | .read8, a, d => .read8 a d
  | .readFloat, a, d => .readFloat a d
  | .decodeCell, a, d => .decodeCell a d
  | .encodeCell, a, d => .encodeCell a d
  | .readUser, a, d => .readUser a d
  | .readRdpr, a, d => .readRdpr a d
  | .readWrpr1, a, d => .readWrpr1 a d
  | .readWrpr0, a, d => .readWrpr0 a d
  | .readData1, a, d => .readData1 a d
  | .readData0, a, d => .readData0 a d
  | .readData16, a, d => .readData16 a d
  | .writeOb16, a, d => .writeOb16 a d
  | .writeOb8x2, a, d => .writeOb8x2 a d

/-- The four formats (R92): which operand fields a command reads. -/
inductive Format where
  /-- No operand. -/
  | none
  /-- `a` only. -/
  | a
  /-- `d` only. -/
  | d
  /-- `a` and `d`. -/
  | ad
  deriving DecidableEq, Repr

/-- The format column of the opcode map (R93). -/
def Op.format : Op → Format
  | .rdStatr => .none
  | .wrStatr => .d
  | .rdCtlr => .none
  | .wrCtlr => .d
  | .wrKeyr => .d
  | .wrObkeyr => .d
  | .wrAddr => .d
  | .ld8 => .a
  | .ld16 => .a
  | .st16 => .ad
  | .ldob => .a
  | .stob => .ad
  | .calcAddr => .a
  | .unlock => .none
  | .unlockOb => .none
  | .lock => .none
  | .isBusy => .none
  | .isDone => .none
  | .isWperr => .none
  | .clearDone => .none
  | .waitNotBusy => .none
  | .waitDone => .none
  | .erasePage => .a
  | .program16 => .ad
  | .program8x2 => .ad
  | .programFloat => .ad
  | .read16 => .a
  | .read8 => .a
  | .readFloat => .a
  | .decodeCell => .d
  | .encodeCell => .d
  | .readUser => .none
  | .readRdpr => .none
  | .readWrpr1 => .none
  | .readWrpr0 => .none
  | .readData1 => .none
  | .readData0 => .none
  | .readData16 => .none
  | .writeOb16 => .d
  | .writeOb8x2 => .d

/-- The mnemonic column of the opcode map (R93, R105). -/
def Op.mnemonic : Op → String
  | .rdStatr => "RD_STATR"
  | .wrStatr => "WR_STATR"
  | .rdCtlr => "RD_CTLR"
  | .wrCtlr => "WR_CTLR"
  | .wrKeyr => "WR_KEYR"
  | .wrObkeyr => "WR_OBKEYR"
  | .wrAddr => "WR_ADDR"
  | .ld8 => "LD8"
  | .ld16 => "LD16"
  | .st16 => "ST16"
  | .ldob => "LDOB"
  | .stob => "STOB"
  | .calcAddr => "CALC_ADDR"
  | .unlock => "UNLOCK"
  | .unlockOb => "UNLOCK_OB"
  | .lock => "LOCK"
  | .isBusy => "IS_BUSY"
  | .isDone => "IS_DONE"
  | .isWperr => "IS_WPERR"
  | .clearDone => "CLEAR_DONE"
  | .waitNotBusy => "WAIT_NOT_BUSY"
  | .waitDone => "WAIT_DONE"
  | .erasePage => "ERASE_PAGE"
  | .program16 => "PROGRAM_16"
  | .program8x2 => "PROGRAM_8X2"
  | .programFloat => "PROGRAM_FLOAT"
  | .read16 => "READ_16"
  | .read8 => "READ_8"
  | .readFloat => "READ_FLOAT"
  | .decodeCell => "DECODE_CELL"
  | .encodeCell => "ENCODE_CELL"
  | .readUser => "READ_USER"
  | .readRdpr => "READ_RDPR"
  | .readWrpr1 => "READ_WRPR1"
  | .readWrpr0 => "READ_WRPR0"
  | .readData1 => "READ_DATA1"
  | .readData0 => "READ_DATA0"
  | .readData16 => "READ_DATA16"
  | .writeOb16 => "WRITE_OB_16"
  | .writeOb8x2 => "WRITE_OB_8X2"

/-- The bits of the field `a` that a command uses (R92, R93): all 32, the three of a cell id, or none. -/
def Op.usedA : Op → Word
  | .rdStatr => 0#32
  | .wrStatr => 0#32
  | .rdCtlr => 0#32
  | .wrCtlr => 0#32
  | .wrKeyr => 0#32
  | .wrObkeyr => 0#32
  | .wrAddr => 0#32
  | .ld8 => 0xFFFFFFFF#32
  | .ld16 => 0xFFFFFFFF#32
  | .st16 => 0xFFFFFFFF#32
  | .ldob => 7#32
  | .stob => 7#32
  | .calcAddr => 0xFFFFFFFF#32
  | .unlock => 0#32
  | .unlockOb => 0#32
  | .lock => 0#32
  | .isBusy => 0#32
  | .isDone => 0#32
  | .isWperr => 0#32
  | .clearDone => 0#32
  | .waitNotBusy => 0#32
  | .waitDone => 0#32
  | .erasePage => 0xFFFFFFFF#32
  | .program16 => 0xFFFFFFFF#32
  | .program8x2 => 0xFFFFFFFF#32
  | .programFloat => 0xFFFFFFFF#32
  | .read16 => 0xFFFFFFFF#32
  | .read8 => 0xFFFFFFFF#32
  | .readFloat => 0xFFFFFFFF#32
  | .decodeCell => 0#32
  | .encodeCell => 0#32
  | .readUser => 0#32
  | .readRdpr => 0#32
  | .readWrpr1 => 0#32
  | .readWrpr0 => 0#32
  | .readData1 => 0#32
  | .readData0 => 0#32
  | .readData16 => 0#32
  | .writeOb16 => 0#32
  | .writeOb8x2 => 0#32

/-- The bits of the field `d` that a command uses (R92, R93). -/
def Op.usedD : Op → Word
  | .rdStatr => 0#32
  | .wrStatr => 0xFFFFFFFF#32
  | .rdCtlr => 0#32
  | .wrCtlr => 0xFFFFFFFF#32
  | .wrKeyr => 0xFFFFFFFF#32
  | .wrObkeyr => 0xFFFFFFFF#32
  | .wrAddr => 0xFFFFFFFF#32
  | .ld8 => 0#32
  | .ld16 => 0#32
  | .st16 => 0xFFFF#32
  | .ldob => 0#32
  | .stob => 0xFFFF#32
  | .calcAddr => 0#32
  | .unlock => 0#32
  | .unlockOb => 0#32
  | .lock => 0#32
  | .isBusy => 0#32
  | .isDone => 0#32
  | .isWperr => 0#32
  | .clearDone => 0#32
  | .waitNotBusy => 0#32
  | .waitDone => 0#32
  | .erasePage => 0#32
  | .program16 => 0xFFFF#32
  | .program8x2 => 0xFFFF#32
  | .programFloat => 0xFFFFFFFF#32
  | .read16 => 0#32
  | .read8 => 0#32
  | .readFloat => 0#32
  | .decodeCell => 0xFFFF#32
  | .encodeCell => 0xFF#32
  | .readUser => 0#32
  | .readRdpr => 0#32
  | .readWrpr1 => 0#32
  | .readWrpr0 => 0#32
  | .readData1 => 0#32
  | .readData0 => 0#32
  | .readData16 => 0#32
  | .writeOb16 => 0xFFFF#32
  | .writeOb8x2 => 0xFFFF#32

end Sys2Proof
end

