-- ==== Sys2Proof/WellFormed.lean ====
section
/-! DEFINITION. Well-formed commands: the ones an assembler of spec R105 writes. Two checks: the bits
a command does not use are 0 (R92 lets a word carry any value there, and such a word decodes and runs
too), and a cell id names one of the six cells (R64; ids 6 and 7 decode, and fault when executed). -/

namespace Sys2Proof

/-- The operand bits the command does not use are 0 (R92). -/
abbrev Instr.UnusedZero (i : Instr) : Prop :=
  i.a &&& ~~~i.op.usedA = 0#32 ∧ i.d &&& ~~~i.op.usedD = 0#32

/-- The cell id of an `LDOB` or a `STOB` names one of the six cells (R64, R102). -/
abbrev Instr.CellNamed (i : Instr) : Prop :=
  (i.op = .ldob ∨ i.op = .stob) → (i.a.extractLsb' 0 3).toNat ≤ 5

/-- A command as the assembler of R105 writes it. -/
abbrev Instr.WellFormed (i : Instr) : Prop := i.UnusedZero ∧ i.CellNamed

/-- The command with every bit it does not use set to 0: what R92 says it is the same command as. -/
def Instr.canonical (i : Instr) : Instr := i.op.instr (i.a &&& i.op.usedA) (i.d &&& i.op.usedD)

end Sys2Proof
end

