-- ==== Sys2Proof/Decode.lean ====
section
/-! DEFINITION. The command decoder and encoder (spec R90 to R93, R102), the assembler of R105, and
the host's numbered reading of a table word. A command is one word of 72 bits; decoding tests `op`
alone (R92). -/

namespace Sys2Proof

/-- The opcode column of the opcode map (R93). -/
def Op.code : Op → BitVec 8
  | .rdStatr => 0x01#8
  | .wrStatr => 0x02#8
  | .rdCtlr => 0x03#8
  | .wrCtlr => 0x04#8
  | .wrKeyr => 0x05#8
  | .wrObkeyr => 0x06#8
  | .wrAddr => 0x07#8
  | .ld8 => 0x08#8
  | .ld16 => 0x09#8
  | .st16 => 0x0A#8
  | .ldob => 0x0B#8
  | .stob => 0x0C#8
  | .calcAddr => 0x10#8
  | .unlock => 0x20#8
  | .unlockOb => 0x21#8
  | .lock => 0x22#8
  | .isBusy => 0x30#8
  | .isDone => 0x31#8
  | .isWperr => 0x32#8
  | .clearDone => 0x33#8
  | .waitNotBusy => 0x34#8
  | .waitDone => 0x35#8
  | .erasePage => 0x40#8
  | .program16 => 0x50#8
  | .program8x2 => 0x51#8
  | .programFloat => 0x52#8
  | .read16 => 0x60#8
  | .read8 => 0x61#8
  | .readFloat => 0x62#8
  | .decodeCell => 0x70#8
  | .encodeCell => 0x71#8
  | .readUser => 0x72#8
  | .readRdpr => 0x73#8
  | .readWrpr1 => 0x74#8
  | .readWrpr0 => 0x75#8
  | .readData1 => 0x76#8
  | .readData0 => 0x77#8
  | .readData16 => 0x78#8
  | .writeOb16 => 0x79#8
  | .writeOb8x2 => 0x7A#8

/-- The command an opcode names; none for the 216 reserved ones (R93, R102). -/
def Op.ofCode (c : BitVec 8) : Option Op :=
  match c.toNat with
  | 0x01 => some .rdStatr
  | 0x02 => some .wrStatr
  | 0x03 => some .rdCtlr
  | 0x04 => some .wrCtlr
  | 0x05 => some .wrKeyr
  | 0x06 => some .wrObkeyr
  | 0x07 => some .wrAddr
  | 0x08 => some .ld8
  | 0x09 => some .ld16
  | 0x0A => some .st16
  | 0x0B => some .ldob
  | 0x0C => some .stob
  | 0x10 => some .calcAddr
  | 0x20 => some .unlock
  | 0x21 => some .unlockOb
  | 0x22 => some .lock
  | 0x30 => some .isBusy
  | 0x31 => some .isDone
  | 0x32 => some .isWperr
  | 0x33 => some .clearDone
  | 0x34 => some .waitNotBusy
  | 0x35 => some .waitDone
  | 0x40 => some .erasePage
  | 0x50 => some .program16
  | 0x51 => some .program8x2
  | 0x52 => some .programFloat
  | 0x60 => some .read16
  | 0x61 => some .read8
  | 0x62 => some .readFloat
  | 0x70 => some .decodeCell
  | 0x71 => some .encodeCell
  | 0x72 => some .readUser
  | 0x73 => some .readRdpr
  | 0x74 => some .readWrpr1
  | 0x75 => some .readWrpr0
  | 0x76 => some .readData1
  | 0x77 => some .readData0
  | 0x78 => some .readData16
  | 0x79 => some .writeOb16
  | 0x7A => some .writeOb8x2
  | _ => none

/-- The field `op`, bits 71:64 of a command word (R91). -/
def opField (w : CommandWord) : BitVec 8 := w.extractLsb' 64 8

/-- The field `a`, bits 63:32 of a command word (R91). -/
def aField (w : CommandWord) : Word := w.extractLsb' 32 32

/-- The field `d`, bits 31:0 of a command word (R91). -/
def dField (w : CommandWord) : Word := w.extractLsb' 0 32

/-- Why a word is not a command: its opcode is reserved (R102). -/
inductive DecodeError where
  /-- `op` is one of the 216 values the opcode map does not list (R102, U1): safe. -/
  | reservedOpcode (op : BitVec 8)
  deriving DecidableEq, Repr

/-- Decoding tests `op` alone; every value of the other fields is accepted (R92, R102). -/
def decode (w : CommandWord) : Except DecodeError Instr :=
  match Op.ofCode (opField w) with
  | some op => .ok (op.instr (aField w) (dField w))
  | none => .error (.reservedOpcode (opField w))

/-- The word of a command: `op` first, then `a`, then `d` (R91). -/
def encode (i : Instr) : CommandWord := i.op.code ++ i.a ++ i.d

/-- Assembly of one line (R105): the operands the format reads, in order. `PROGRAM_8X2` and
`WRITE_OB_8X2` take their two bytes apart, packed as `hi <<< 8 ||| lo` (R95). Every bit the command does
not use is 0. None when the number of operands is not the command's. -/
def assemble (op : Op) (operands : List Word) : Option Instr :=
  let pack (hi lo : Word) : Word := ((hi &&& 0xFF#32) <<< 8) ||| (lo &&& 0xFF#32)
  match op, operands with
  | .program8x2, [a, hi, lo] => some (Instr.program8x2 a (pack hi lo))
  | .program8x2, _ => none
  | .writeOb8x2, [hi, lo] => some (Instr.writeOb8x2 0#32 (pack hi lo))
  | .writeOb8x2, _ => none
  | op, operands =>
    match op.format, operands with
    | .none, [] => some (op.instr 0#32 0#32).canonical
    | .a, [a] => some (op.instr a 0#32).canonical
    | .d, [d] => some (op.instr 0#32 d).canonical
    | .ad, [a, d] => some (op.instr a d).canonical
    | _, _ => none

/-- The command word a table word stands for: the table writes it as one number of 72 bits, bit 0 the
least significant; only the low `nbits` count. -/
def tableWord (nbits w : Nat) : CommandWord := BitVec.ofNat 72 (w % 2 ^ nbits)

/-- The command the decoder reads from a table word. -/
def decodeTableWord (nbits w : Nat) : Option Instr :=
  match decode (tableWord nbits w) with
  | .ok i => some i
  | .error _ => none

end Sys2Proof
end

