-- ==== Sys2Proof/Config.lean ====
section
/-! DEFINITION. What an implementation fixes (the parameters of spec R6 and R7) and the free values
(the draws of R10 and R218). The parameters are arguments: a machine state carries a `Config`, no step
changes it, and a statement over all states therefore holds for every value of every parameter
(log 4). The free values are opaque: no proof can learn what they are (log 5, log 6). -/

namespace Sys2Proof

/-- `KEY_FAIL_POLICY` (R7, D9): what a wrong key value does. -/
inductive KeyFailPolicy where
  /-- The key FSM returns to IDLE. -/
  | restart
  /-- The key FSM ignores every write until reset. -/
  | dead
  deriving DecidableEq, Repr

/-- The parameters the spec names without fixing a value (R7). -/
structure Config where
  /-- `FLASH_BASE`, byte address of main flash. -/
  flashBase : Word
  /-- `FLASH_SIZE`, bytes of main flash. -/
  flashSize : Nat
  /-- `NV_OFFSET`, start of the reserved region, from `FLASH_BASE` (C1). -/
  nvOffset : Nat
  /-- `NV_LENGTH`, bytes of the reserved region; read by no check (R251). -/
  nvLength : Nat
  /-- `KEY1`, `KEY2`: the main-array keys in order (R101). -/
  key1 : Word
  key2 : Word
  /-- `OBKEY1`, `OBKEY2`: the option-byte keys in order (R101, D8). -/
  obKey1 : Word
  obKey2 : Word
  /-- `KEY_FAIL_POLICY` (D9). -/
  keyFailPolicy : KeyFailPolicy
  /-- `OBKEY_NEEDS_MAIN_UNLOCKED` (D11). -/
  obKeyNeedsMainUnlocked : Bool
  /-- `OB_STORE_AUTOCOMPLEMENT` (D28). -/
  obStoreAutocomplement : Bool
  /-- `write_protected(p)` (D19): the main pages that refuse erase and program. -/
  protectedPages : List Nat
  /-- Bit positions in STATR (D7). -/
  bsyBit : Nat
  eopBit : Nat
  wrprterrBit : Nat
  /-- Bit positions in CTLR (D7). -/
  pgBit : Nat
  perBit : Nat
  obpgBit : Nat
  oberBit : Nat
  strtBit : Nat
  lockBit : Nat
  deriving DecidableEq, Repr

/-- `write_protected(p)`: a total Boolean function of the page index, fixed for a run (R7, D19). -/
def Config.writeProtected (c : Config) (p : Nat) : Bool := c.protectedPages.contains p

/-- The bit positions of STATR (R28). -/
def Config.statrBits (c : Config) : List Nat := [c.bsyBit, c.eopBit, c.wrprterrBit]

/-- The bit positions of CTLR (R26). -/
def Config.ctlrBits (c : Config) : List Nat :=
  [c.pgBit, c.perBit, c.obpgBit, c.oberBit, c.strtBit, c.lockBit]

/-- The constraints R7 puts on the parameters. -/
structure Config.Ok (c : Config) : Prop where
  base_page : c.flashBase.toNat % pageSize = 0
  size_page : c.flashSize % pageSize = 0
  fits : c.flashBase.toNat + c.flashSize ≤ 2 ^ 32
  nv_even : c.nvOffset % 2 = 0
  nv_fits : c.nvOffset + c.nvLength ≤ c.flashSize
  statr_distinct : c.statrBits.Nodup
  statr_small : ∀ b ∈ c.statrBits, b < 32
  ctlr_distinct : c.ctlrBits.Nodup
  ctlr_small : ∀ b ∈ c.ctlrBits, b < 32

/-- The default column of R7. All but `NV_OFFSET` are the family's values, from outside the source
(U20, G3 to G5): PRESUMED, log 4. No statement rests on them. -/
def Config.family : Config where
  flashBase := 0x08000000#32
  flashSize := 16384
  nvOffset := 16320
  nvLength := 64
  key1 := 0x45670123#32
  key2 := 0xCDEF89AB#32
  obKey1 := 0x45670123#32
  obKey2 := 0xCDEF89AB#32
  keyFailPolicy := .restart
  obKeyNeedsMainUnlocked := false
  obStoreAutocomplement := false
  protectedPages := []
  bsyBit := 0
  eopBit := 5
  wrprterrBit := 4
  pgBit := 0
  perBit := 1
  obpgBit := 4
  oberBit := 5
  strtBit := 6
  lockBit := 7

/-- The memory-mapped placement R7 and R64 record for an implementer who wants a bus view: "used by no
rule". Kept for reference only; the block selects registers by opcode and cells by id (R65, R64). -/
structure BusPlacement where
  regBase : Word
  keyrOff : Nat
  obkeyrOff : Nat
  statrOff : Nat
  ctlrOff : Nat
  addrOff : Nat
  obBase : Word
  rdprOff : Nat
  userOff : Nat
  data0Off : Nat
  data1Off : Nat
  wrpr0Off : Nat
  wrpr1Off : Nat
  deriving DecidableEq, Repr

/-- The family's placement (R7, G6, G7): informational. -/
def BusPlacement.family : BusPlacement where
  regBase := 0x40022000#32
  keyrOff := 0x04
  obkeyrOff := 0x08
  statrOff := 0x0C
  ctlrOff := 0x10
  addrOff := 0x14
  obBase := 0x1FFFF800#32
  rdprOff := 0
  userOff := 2
  data0Off := 4
  data1Off := 6
  wrpr0Off := 8
  wrpr1Off := 10

/-- `ENDURANCE`, about this many erases; informational, "no rule reads it" (R6, R257). -/
def endurance : Nat := 10000

/-- `any16`: the n-th 16-bit draw (R10, R218): a program of a cell that is not erased (R133, R135), a
read of a cell under a pending operation (R76), a cell of an operation cut short by reset (R242). -/
opaque Config.any16 : Nat → BitVec 16

/-- The n-th free value of a 32-bit sequencer register after RESET (R241, R218 (e)). -/
opaque Config.any32 : Nat → BitVec 32

/-- The n-th free value of an 8-bit sequencer register after RESET (R241, R218 (e)). -/
opaque Config.any8 : Nat → BitVec 8

/-- `INITIAL_MAIN`: the byte at a byte address of main flash before the first command ever; "nothing
may be assumed" (R7, R218 (d), R244). -/
opaque Config.initialMain : Nat → BitVec 8

/-- `INITIAL_OB`: the cell with a given id before the first command ever (R7, R218 (d), R244). -/
opaque Config.initialOb : Nat → BitVec 16

end Sys2Proof
end

