-- ==== Sys2Proof/Machine/State.lean ====
section
/-! DEFINITION. The state of the block (spec R20 to R40): every piece of state the spec names, as plain
data, the reasons a step can stop, and the state right after reset (R38). -/

namespace Sys2Proof.Machine

/-- A key FSM (R31). -/
inductive KeyFsm where
  /-- No key of the sequence accepted yet. -/
  | idle
  /-- The first key accepted, the second awaited. -/
  | half
  /-- A wrong value under the `dead` policy: every write ignored until reset. -/
  | dead
  deriving DecidableEq, Repr

/-- The six option-byte cells, ids 0 to 5 in this order (R34). -/
inductive CellId where
  | user
  | rdpr
  | wrpr1
  | wrpr0
  | data1
  | data0
  deriving DecidableEq, Repr

/-- `PEND`, the operation ENG has accepted and not completed (R32). -/
inductive Pending where
  | none
  /-- Erase of main page `p`. -/
  | erase (p : Nat)
  /-- Program of main cell `i` with `v`. -/
  | prog (i : Nat) (v : Half)
  /-- Erase of the six option cells. -/
  | obErase
  /-- Program of option cell `c` with `v`. -/
  | obProg (c : CellId) (v : Half)
  deriving DecidableEq, Repr

/-- `OB`, the six 16-bit option-byte cells (R34). -/
structure OptionBytes where
  user : Half
  rdpr : Half
  wrpr1 : Half
  wrpr0 : Half
  data1 : Half
  data0 : Half
  deriving DecidableEq, Repr

/-- The bytes of main flash that are not known to be as in a new part, by byte address (R33): a list in
one canonical form, see `Memory.wf`. A byte that is not listed still holds its `INITIAL_MAIN` value
(log 6). -/
abbrev Memory := List Host.Cell

/-- The canonical form of `Memory`: addresses strictly rising. (An unlisted address reads as no value at
this level, so no entry can equal it: log 6.) -/
def Memory.wf : Memory → Bool
  | [] => true
  | [_] => true
  | c :: d :: m => decide (c.1 < d.1) && Memory.wf (d :: m)

/-- The three agents that take steps (R4, R138). -/
inductive Agent where
  | host
  | seq
  | eng
  deriving DecidableEq, Repr

/-- An action of HOST: a command word on the command port, or RESET (R11, R90, R240). -/
inductive HostAction where
  | command (w : CommandWord)
  | reset
  deriving DecidableEq, Repr

/-- What the response at the end of a command carries (R90, R104). -/
inductive Response where
  /-- Completion only: the command's result column is "-". -/
  | done
  /-- Completion and the 32 bits of `RES`. -/
  | value (v : Word)
  deriving DecidableEq, Repr

/-- The model-level faults (R217). A fault records its code and nothing else; the hardware has none of
them (R215). Each stands where the source leaves the hardware's behaviour undefined, so each is safe:
the model gives no meaning where the chip does something unknown. -/
inductive Fault where
  /-- Code 1, F_ILLEGAL_COMMAND: the mark left by a refused word (`Refusal.illegalCommand`); answered only
  by a step of a run that is already over (R40). Safe. -/
  | illegalCommand
  /-- Code 2, F_BAD_CELL: LDOB or STOB with cell id 6 or 7 (R64, U2). Safe. -/
  | badCell
  /-- Code 3, F_OUT_OF_RANGE: LD8, LD16, ST16 or the start of a page erase outside main flash (R71, U3).
  Safe. -/
  | outOfRange
  /-- Code 4, F_MISALIGNED: a 16-bit access at an odd address, or the start of a page erase off a page
  boundary (R67, U5, U6). Safe. -/
  | misaligned
  /-- Code 5, F_BUSY_WRITE: WR_CTLR, WR_ADDR, ST16 or STOB while busy (R75, U8). Safe. -/
  | busyWrite
  /-- Code 6, F_ILLEGAL_CTLR: two mode bits, or an undefined bit, written to CTLR while unlocked (R123,
  U9). Safe. -/
  | illegalCtlr
  deriving DecidableEq, Repr

/-- The code column of the fault table (R217). -/
def Fault.code : Fault → Nat
  | .illegalCommand => 1
  | .badCell => 2
  | .outOfRange => 3
  | .misaligned => 4
  | .busyWrite => 5
  | .illegalCtlr => 6

/-- The reasons the machine has no meaning for a command word. -/
inductive Refusal where
  /-- An instruction whose meaning is not written yet: raised by no arm of `exec`. Safe. -/
  | notModelled (mnemonic : String)
  /-- F_ILLEGAL_COMMAND: the opcode is reserved and the word spells no command (R102, R217, U1). Raised
  by the step that meets such a word. Safe. -/
  | illegalCommand
  deriving DecidableEq, Repr

/-- The state of the block: the variables of R20, the mark of R40, HOST's remaining actions (R138), and
the model's own fields `cfg`, `response`, `turns` and `draws`. -/
structure State where
  /-- The parameters (R7). Not state: no step changes them (log 4). -/
  cfg : Config
  /-- `LOCK`: the main-array lock; true is Locked (R29). -/
  lock : Bool
  /-- `OBL`: the option-byte lock, hidden; true is Locked (R30). -/
  obl : Bool
  /-- `MK`: the main key FSM, hidden (R31). -/
  mkFsm : KeyFsm
  /-- `OK`: the option key FSM, hidden (R31). -/
  okFsm : KeyFsm
  /-- `PG`, "program-enable" (R26). -/
  pg : Bool
  /-- `PER`, "page-erase-enable" (R26). -/
  per : Bool
  /-- `OBPG`, "option-byte programming mode" (R26). -/
  obpg : Bool
  /-- `OBER`, the option-block erase enable (R26). -/
  ober : Bool
  /-- `STRT`, the start bit (R26). -/
  strt : Bool
  /-- `ADDR`, the "target address register" (R27). -/
  addr : Word
  /-- `BSY`, busy (R23). -/
  bsy : Bool
  /-- `EOP`, operation complete, the done flag (R23). -/
  eop : Bool
  /-- `WRPRTERR`, write-protect error (R23). -/
  wrprterr : Bool
  /-- `PEND`, the operation in flight, hidden (R32). -/
  pend : Pending
  /-- `MAIN`, the main flash array (R33). -/
  main : Memory
  /-- `OB`, the option-byte cells (R34). -/
  ob : OptionBytes
  /-- `SEQ_OP`, the command in progress; none is IDLE (R22). -/
  seqOp : Option Op
  /-- `SPC`, the sequencer step counter (R22). -/
  spc : Nat
  /-- `RA`, the address operand (R21). -/
  ra : Word
  /-- `RD`, the data operand (R21). -/
  rd : Word
  /-- `RT`, the last register word a guard or spin read (R21). -/
  rt : Word
  /-- `RES`, the result (R21). -/
  res : Word
  /-- `RS0`: snapshot of USER (R21). -/
  rs0 : Half
  /-- `RS1`: snapshot of RDPR (R21). -/
  rs1 : Half
  /-- `RS2`: snapshot of WRPR1 (R21). -/
  rs2 : Half
  /-- `RS3`: snapshot of WRPR0 (R21). -/
  rs3 : Half
  /-- `RB1`: high byte of the option datum (R21). -/
  rb1 : Byte
  /-- `RB0`: low byte of the option datum (R21). -/
  rb0 : Byte
  /-- `FAULT`, the model-only mark: the code of the first fault raised (R40). -/
  fault : Option Fault
  /-- HOST's remaining actions, the next one first (R11, R138; log 3). -/
  host : List HostAction
  /-- The response of the last command, none while a command runs (R90, R104; log 8). -/
  response : Option Response
  /-- The order in which the agents move next (R138: "any enabled step may be taken next"); empty after
  reset, which is the model's choice (log 2). -/
  turns : List Agent
  /-- How many draws have been taken (R10; log 5). -/
  draws : Nat
  deriving DecidableEq, Repr

/-- The block right after reset, before its first command (R38). The sequencer registers are unspecified
and get 0 (log 7); the parameters are the defaults of R7 (log 4); the arrays hold `INITIAL_MAIN` and
`INITIAL_OB` (log 6). The model's own fields and HOST's list start at values the model chooses: nothing for
HOST to do (log 3), no order imposed on the agents (`turns` empty, log 2), no draw taken (log 5), no
response (log 8). -/
def State.reset : State where
  cfg := Config.family
  lock := true
  obl := true
  mkFsm := .idle
  okFsm := .idle
  pg := false
  per := false
  obpg := false
  ober := false
  strt := false
  addr := 0#32
  bsy := false
  eop := false
  wrprterr := false
  pend := .none
  main := []
  ob := { user := Config.initialOb 0, rdpr := Config.initialOb 1, wrpr1 := Config.initialOb 2,
          wrpr0 := Config.initialOb 3, data1 := Config.initialOb 4, data0 := Config.initialOb 5 }
  seqOp := none
  spc := 0
  ra := 0#32
  rd := 0#32
  rt := 0#32
  res := 0#32
  rs0 := 0#16
  rs1 := 0#16
  rs2 := 0#16
  rs3 := 0#16
  rb1 := 0#8
  rb0 := 0#8
  fault := none
  host := []
  response := none
  turns := []
  draws := 0

end Sys2Proof.Machine
end

