-- ==== Sys2Proof/Machine/Operands.lean ====
section
/-! DEFINITION. Operand assembly and data encodings (spec R94 to R99), and the addressing of the
three spaces (R60 to R64). -/

namespace Sys2Proof.Machine

/-- `zext_32` of a cell (R8). -/
def zextHalf (v : Half) : Word := v.setWidth 32

/-- `zext_32` of a byte (R8). -/
def zextByte (v : Byte) : Word := v.setWidth 32

/-- `zext_32` of one bit (R8). -/
def zextBit (b : Bool) : Word := if b then 1#32 else 0#32

/-- The 16-bit datum `d[15:0]` (R94). -/
def lowHalf (v : Word) : Half := v.extractLsb' 0 16

/-- `v[31:16]`, the half of a floating value stored at `a + 2` (R97). -/
def highHalf (v : Word) : Half := v.extractLsb' 16 16

/-- `w[7:0]`. -/
def lowByte (w : Half) : Byte := w.extractLsb' 0 8

/-- `w[15:8]`. -/
def highByte (w : Half) : Byte := w.extractLsb' 8 8

/-- The byte operand `d[7:0]` (R94). -/
def byteOperand (v : Word) : Byte := v.extractLsb' 0 8

/-- The cell id operand `a[2:0]` (R94). -/
def cellOperand (v : Word) : BitVec 3 := v.extractLsb' 0 3

/-- The cell an id names; ids 6 and 7 name none (R34, R64). -/
def cellOf (c : BitVec 3) : Option CellId :=
  match c.toNat with
  | 0 => some .user
  | 1 => some .rdpr
  | 2 => some .wrpr1
  | 3 => some .wrpr0
  | 4 => some .data1
  | 5 => some .data0
  | _ => none

/-- The cell code: `encode(b) = {~8(b), b}` (R99). -/
def encodeCell (b : Byte) : Half := (~~~b) ++ b

/-- The inverse, with 0 for a mismatch: `decode(w)` is the low byte if the high byte is its inverse,
else 0x00 (R99, R206). -/
def decodeCell (w : Half) : Byte := if ~~~(highByte w) = lowByte w then lowByte w else 0#8

/-- A valid cell (R35). -/
def validCell (w : Half) : Bool := decide (highByte w = ~~~(lowByte w))

/-- `InMain(a)` (R61). -/
def inMain (c : Config) (a : Word) : Bool :=
  decide (c.flashBase.toNat ≤ a.toNat) && decide (a.toNat < c.flashBase.toNat + c.flashSize)

/-- `CellOf(a)` (R61). -/
def mainCellOf (c : Config) (a : Word) : Nat := (a.toNat - c.flashBase.toNat) / 2

/-- `PageOf(a)` (R61). -/
def pageOf (c : Config) (a : Word) : Nat := (a.toNat - c.flashBase.toNat) / pageSize

/-- `PageOfCell(i)` (R61). -/
def pageOfCell (i : Nat) : Nat := i / pageCells

/-- The byte address of the low byte of main cell `i` (R33). -/
def cellAddr (c : Config) (i : Nat) : Nat := c.flashBase.toNat + 2 * i

/-- The absolute address of byte offset `n` of the reserved region, modulo 2^32 (R150, R151). -/
def calculateAddress (c : Config) (n : Word) : Word := c.flashBase + BitVec.ofNat 32 c.nvOffset + n

end Sys2Proof.Machine
end

