-- ==== Sys2Proof/Machine/Flags.lean ====
section
/-! DEFINITION. The register words (spec R26, R28, R100): where each flag and field stands in STATR
and CTLR, and the masks. -/

namespace Sys2Proof.Machine

/-- `M_<name>` = `1 << <name>_BIT` (R9). -/
def maskOf (bit : Nat) : Word := 1#32 <<< bit

/-- One field of a register word: its value at its position, 0 elsewhere. -/
def fieldAt (bit : Nat) (b : Bool) : Word := if b then maskOf bit else 0#32

/-- `v[bit]`. -/
def bitOf (v : Word) (bit : Nat) : Bool := v.getLsbD bit

/-- The STATR word: `BSY`, `EOP`, `WRPRTERR`, 0 in every other bit (R28, R120). -/
def statrWord (s : State) : Word :=
  fieldAt s.cfg.bsyBit s.bsy ||| fieldAt s.cfg.eopBit s.eop ||| fieldAt s.cfg.wrprterrBit s.wrprterr

/-- The CTLR word: the four mode bits, `STRT` and `LOCK`, 0 in every other bit (R26, R122). -/
def ctlrWord (s : State) : Word :=
  fieldAt s.cfg.pgBit s.pg ||| fieldAt s.cfg.perBit s.per ||| fieldAt s.cfg.obpgBit s.obpg |||
  fieldAt s.cfg.oberBit s.ober ||| fieldAt s.cfg.strtBit s.strt ||| fieldAt s.cfg.lockBit s.lock

/-- `CTLR_DEFINED`: the OR of the six CTLR masks (R100). -/
def ctlrDefined (c : Config) : Word :=
  maskOf c.pgBit ||| maskOf c.perBit ||| maskOf c.obpgBit |||
  maskOf c.oberBit ||| maskOf c.strtBit ||| maskOf c.lockBit

/-- `STATR_DEFINED`: the OR of the three STATR masks (R100). -/
def statrDefined (c : Config) : Word :=
  maskOf c.bsyBit ||| maskOf c.eopBit ||| maskOf c.wrprterrBit

/-- How many of the four mode bits are set: the `popcount` of R123. -/
def modeCount (pg per obpg ober : Bool) : Nat := pg.toNat + per.toNat + obpg.toNat + ober.toNat

end Sys2Proof.Machine
end

