-- ==== Sys2Proof/Machine/Ops.lean ====
section
/-! DEFINITION. The operations over registers and cells (spec R120 to R131), the engine's completion
step (R132 to R136) and the RESET step (R241, R242). There is no exception entry and no return: the
block raises nothing (R215, R222, R223). -/

namespace Sys2Proof.Machine

/-! ## Main flash as bytes and cells -/

/-- The byte listed at an address; none where the address still holds its initial content. -/
def Memory.byte? : Memory → Nat → Option Byte
  | [], _ => none
  | c :: m, a => if c.1 = a then some c.2 else Memory.byte? m a

/-- Writes one byte, keeping the addresses strictly rising. -/
def Memory.write : Memory → Nat → Byte → Memory
  | [], a, v => [(a, v)]
  | c :: m, a, v =>
    if a < c.1 then (a, v) :: c :: m
    else if a = c.1 then (a, v) :: m
    else c :: Memory.write m a v

/-- Writes the two bytes of a cell, the low byte at the lower address (R66). -/
def Memory.writeHalf (m : Memory) (a : Nat) (w : Half) : Memory :=
  (m.write a (lowByte w)).write (a + 1) (highByte w)

/-- Writes a list of cells from a byte address on. -/
def Memory.writeHalves (m : Memory) (a : Nat) : List Half → Memory
  | [] => m
  | w :: ws => Memory.writeHalves (m.writeHalf a w) (a + 2) ws

/-- What a byte of main flash reads as: the listed byte, else its `INITIAL_MAIN` value (R38, log 6). -/
def State.mainByte (s : State) (a : Nat) : Byte := (s.main.byte? a).getD (Config.initialMain a)

/-- `MAIN[i]`, little-endian (R33, R66). -/
def State.mainCell (s : State) (i : Nat) : Half :=
  s.mainByte (cellAddr s.cfg i + 1) ++ s.mainByte (cellAddr s.cfg i)

/-- `MAIN[i] <- w`. -/
def State.setMainCell (s : State) (i : Nat) (w : Half) : State :=
  { s with main := s.main.writeHalf (cellAddr s.cfg i) w }

/-- The cells from `i` on take the values of a list. -/
def State.setMainCells (s : State) (i : Nat) (ws : List Half) : State :=
  { s with main := s.main.writeHalves (cellAddr s.cfg i) ws }

/-! ## Option-byte cells -/

/-- `OB[c]`. -/
def OptionBytes.cell (o : OptionBytes) : CellId → Half
  | .user => o.user
  | .rdpr => o.rdpr
  | .wrpr1 => o.wrpr1
  | .wrpr0 => o.wrpr0
  | .data1 => o.data1
  | .data0 => o.data0

/-- `OB[c] <- w`. -/
def OptionBytes.set (o : OptionBytes) (c : CellId) (w : Half) : OptionBytes :=
  match c with
  | .user => { o with user := w }
  | .rdpr => { o with rdpr := w }
  | .wrpr1 => { o with wrpr1 := w }
  | .wrpr0 => { o with wrpr0 := w }
  | .data1 => { o with data1 := w }
  | .data0 => { o with data0 := w }

/-- The block with all six cells erased (R134, D29). -/
def OptionBytes.erased : OptionBytes := ⟨erased16, erased16, erased16, erased16, erased16, erased16⟩

/-! ## Draws -/

/-- The next `any16` (R10). -/
def State.nextDraw (s : State) : Half := Config.any16 s.draws

/-- The state after `n` draws. -/
def State.drawn (s : State) (n : Nat) : State := { s with draws := s.draws + n }

/-! ## Register transactions (R120 to R126) -/

/-- `RegRead(STATR)` (R120): no side effect. -/
def regReadStatr (s : State) : Word := statrWord s

/-- `RegWrite(STATR, v)` (R121): write one to clear; `BSY` and all other bits ignore the write. -/
def regWriteStatr (v : Word) (s : State) : State :=
  { s with
    eop := s.eop && !(bitOf v s.cfg.eopBit)
    wrprterr := s.wrprterr && !(bitOf v s.cfg.wrprterrBit) }

/-- `RegRead(CTLR)` (R122): no side effect. -/
def regReadCtlr (s : State) : Word := ctlrWord s

/-- The start of R123, with the mode bits just written: a page erase when `PER` is set, an option-block
erase when `OBER` is set and the option lock is open, else nothing. -/
def startErase (s : State) : Except Fault State :=
  if s.per then
    if !inMain s.cfg s.addr then .error .outOfRange
    else if s.addr.toNat % pageSize ≠ 0 then .error .misaligned
    else .ok { s with pend := .erase (pageOf s.cfg s.addr), bsy := true, strt := true }
  else if s.ober then
    if s.obl then .ok s
    else .ok { s with pend := .obErase, bsy := true, strt := true }
  else .ok s

/-- `RegWrite(CTLR, v)` (R123), the tests in its order (R221). -/
def regWriteCtlr (v : Word) (s : State) : Except Fault State :=
  if s.bsy then .error .busyWrite
  else if s.lock then .ok s
  else if v &&& ~~~(ctlrDefined s.cfg) ≠ 0#32 then .error .illegalCtlr
  else if modeCount (bitOf v s.cfg.pgBit) (bitOf v s.cfg.perBit) (bitOf v s.cfg.obpgBit)
      (bitOf v s.cfg.oberBit) > 1 then .error .illegalCtlr
  else
    let s := { s with
      pg := bitOf v s.cfg.pgBit
      per := bitOf v s.cfg.perBit
      obpg := bitOf v s.cfg.obpgBit
      ober := bitOf v s.cfg.oberBit }
    if bitOf v s.cfg.lockBit then .ok { s with lock := true }
    else if bitOf v s.cfg.strtBit then startErase s
    else .ok s

/-- `KeyFail()` (R124). -/
def keyFail (c : Config) : KeyFsm :=
  match c.keyFailPolicy with
  | .restart => .idle
  | .dead => .dead

/-- `RegWrite(KEYR, v)` (R124): accepted in every state. -/
def regWriteKeyr (v : Word) (s : State) : State :=
  match s.mkFsm with
  | .dead => s
  | .idle => if v = s.cfg.key1 then { s with mkFsm := .half } else { s with mkFsm := keyFail s.cfg }
  | .half =>
    if v = s.cfg.key2 then { s with lock := false, mkFsm := .idle } else { s with mkFsm := keyFail s.cfg }

/-- `RegWrite(OBKEYR, v)` (R125). -/
def regWriteObkeyr (v : Word) (s : State) : State :=
  if s.cfg.obKeyNeedsMainUnlocked && s.lock then s
  else
    match s.okFsm with
    | .dead => s
    | .idle => if v = s.cfg.obKey1 then { s with okFsm := .half } else { s with okFsm := keyFail s.cfg }
    | .half =>
      if v = s.cfg.obKey2 then { s with obl := false, okFsm := .idle }
      else { s with okFsm := keyFail s.cfg }

/-- `RegWrite(ADDR, v)` (R126). -/
def regWriteAddr (v : Word) (s : State) : Except Fault State :=
  if s.bsy then .error .busyWrite else .ok { s with addr := v }

/-! ## Cell transactions (R127 to R131) -/

/-- `Affected(i)`: the pending operation will change main cell `i` (R76, R127). -/
def affected (p : Pending) (i : Nat) : Bool :=
  match p with
  | .erase q => decide (q = pageOfCell i)
  | .prog j _ => decide (j = i)
  | _ => false

/-- The value a read of main cell `i` gets, and the state after it: a draw for an affected cell (R76). -/
def readMain (i : Nat) (s : State) : Half × State :=
  if affected s.pend i then (s.nextDraw, s.drawn 1) else (s.mainCell i, s)

/-- `MemRead(a, 1)` (R127): the even address is the low byte (R66). -/
def memRead8 (a : Word) (s : State) : Except Fault (Byte × State) :=
  if !inMain s.cfg a then .error .outOfRange
  else
    let r := readMain (mainCellOf s.cfg a) s
    .ok (if bitOf a 0 then highByte r.1 else lowByte r.1, r.2)

/-- `MemRead(a, 2)` (R128). -/
def memRead16 (a : Word) (s : State) : Except Fault (Half × State) :=
  if !inMain s.cfg a then .error .outOfRange
  else if bitOf a 0 then .error .misaligned
  else .ok (readMain (mainCellOf s.cfg a) s)

/-- `MemWrite(a, 2, v)` (R129): the cell itself changes only at ENG's step. -/
def memWrite16 (a : Word) (v : Half) (s : State) : Except Fault State :=
  if !inMain s.cfg a then .error .outOfRange
  else if bitOf a 0 then .error .misaligned
  else if s.bsy then .error .busyWrite
  else if s.lock || !s.pg then .ok s
  else .ok { s with pend := .prog (mainCellOf s.cfg a) v, bsy := true }

/-- The pending operation will change option cell `c` (R76, R130). -/
def obAffected (p : Pending) (c : CellId) : Bool :=
  match p with
  | .obErase => true
  | .obProg c' _ => decide (c' = c)
  | _ => false

/-- The value a read of option cell `c` gets, and the state after it (R130). Which register takes the value
is the micro-step's to say: inside a micro-program RES stays as it is (the model's choice, log 21). -/
def readOb (c : CellId) (s : State) : Half × State :=
  if obAffected s.pend c then (s.nextDraw, s.drawn 1) else (s.ob.cell c, s)

/-- `ObRead(c)` (R130): ids 6 and 7 fault. -/
def obRead (c : BitVec 3) (s : State) : Except Fault (Half × State) :=
  match cellOf c with
  | none => .error .badCell
  | some c => .ok (readOb c s)

/-- The store of R131 once the cell id is known. -/
def writeOb (c : CellId) (v : Half) (s : State) : Except Fault State :=
  if s.bsy then .error .busyWrite
  else if s.lock || s.obl || !s.obpg then .ok s
  else .ok { s with pend := .obProg c v, bsy := true }

/-- `ObWrite(c, v)` (R131): the cell id is tested first. -/
def obWrite (c : BitVec 3) (v : Half) (s : State) : Except Fault State :=
  match cellOf c with
  | none => .error .badCell
  | some c => writeOb c v s

/-! ## The engine (R132 to R136) -/

/-- `Finish()` (R136). -/
def finishPending (s : State) : State := { s with pend := .none, bsy := false, strt := false }

/-- Completion of a page erase (R132). -/
def completeErase (p : Nat) (s : State) : State :=
  if s.cfg.writeProtected p then { s with wrprterr := true }
  else { s.setMainCells (pageCells * p) (List.replicate pageCells erased16) with eop := true }

/-- Completion of a main-array program (R133): a cell that is not erased gets a draw. -/
def completeProg (i : Nat) (v : Half) (s : State) : State :=
  if s.cfg.writeProtected (pageOfCell i) then { s with wrprterr := true }
  else if s.mainCell i = erased16 then { s.setMainCell i v with eop := true }
  else { (s.drawn 1).setMainCell i s.nextDraw with eop := true }

/-- Completion of an option-block erase (R134). -/
def completeObErase (s : State) : State := { s with ob := .erased, eop := true }

/-- The word an option cell takes (R135): under `OB_STORE_AUTOCOMPLEMENT` the check byte is formed anew. -/
def storedWord (c : Config) (v : Half) : Half :=
  if c.obStoreAutocomplement then encodeCell (lowByte v) else v

/-- Completion of an option-byte cell program (R135). -/
def completeObProg (c : CellId) (v : Half) (s : State) : State :=
  if s.ob.cell c = erased16 then { s with ob := s.ob.set c (storedWord s.cfg v), eop := true }
  else { s.drawn 1 with ob := s.ob.set c s.nextDraw, eop := true }

/-- ENG's step: one completion, then `Finish()`; nothing when nothing is pending (R136). -/
def engStep (s : State) : State :=
  match s.pend with
  | .none => s
  | .erase p => finishPending (completeErase p s)
  | .prog i v => finishPending (completeProg i v s)
  | .obErase => finishPending (completeObErase s)
  | .obProg c v => finishPending (completeObProg c v s)

/-! ## RESET (R241, R242) -/

/-- `n` independent draws (R242). -/
def State.drawList (s : State) (n : Nat) : List Half :=
  (List.range n).map fun k => Config.any16 (s.draws + k)

/-- `Spoil(PEND)`: every cell the pending operation targets gets an independent draw (R242). -/
def spoil (s : State) : State :=
  match s.pend with
  | .none => s
  | .erase p => (s.drawn pageCells).setMainCells (pageCells * p) (s.drawList pageCells)
  | .prog i _ => (s.drawn 1).setMainCell i s.nextDraw
  | .obErase =>
    { s.drawn 6 with
      ob := { user := Config.any16 s.draws, rdpr := Config.any16 (s.draws + 1)
              wrpr1 := Config.any16 (s.draws + 2), wrpr0 := Config.any16 (s.draws + 3)
              data1 := Config.any16 (s.draws + 4), data0 := Config.any16 (s.draws + 5) } }
  | .obProg c _ => { s.drawn 1 with ob := s.ob.set c s.nextDraw }

/-- The sequencer registers take "any value" (R241): ten free values. -/
def forgetRegisters (s : State) : State :=
  { s.drawn 10 with
    ra := Config.any32 s.draws
    rd := Config.any32 (s.draws + 1)
    rt := Config.any32 (s.draws + 2)
    res := Config.any32 (s.draws + 3)
    rs0 := Config.any16 (s.draws + 4)
    rs1 := Config.any16 (s.draws + 5)
    rs2 := Config.any16 (s.draws + 6)
    rs3 := Config.any16 (s.draws + 7)
    rb1 := Config.any8 (s.draws + 8)
    rb0 := Config.any8 (s.draws + 9) }

/-- What RESET does to the controller and the sequencer, apart from the arrays (R241). -/
def clearControl (s : State) : State :=
  { s with
    lock := true
    obl := true
    mkFsm := .idle
    okFsm := .idle
    pg := false
    per := false
    obpg := false
    ober := false
    strt := false
    addr := 0#32
    bsy := false
    eop := false
    wrprterr := false
    pend := .none
    seqOp := none
    spc := 0 }

/-- The RESET step (R241): spoil, then the values of R38; `FAULT` is kept, the command in flight is
abandoned without a response. -/
def resetStep (s : State) : State := forgetRegisters (clearControl (spoil s))

end Sys2Proof.Machine
end

