-- ==== Sys2Proof/Machine/Sequencer.lean ====
section
/-! DEFINITION. The sequencer (spec R21, R22, R107, R137, R138): micro-steps, the four macros, one SEQ
step, and the run of a command to its END with the other agents' steps in between (log 1, log 2). -/

namespace Sys2Proof.Machine

/-- A micro-step: given its own index, the index END and the state (with `SPC` already advanced by one,
R22), it answers the state after it, or a fault. -/
abbrev MicroStep := Nat → Nat → State → Except Fault State

/-- A micro-step that does not touch `SPC` and cannot fault. -/
def act (f : State → State) : MicroStep := fun _ _ s => .ok (f s)

/-- A micro-step that does not touch `SPC` and may fault. -/
def actOrFault (f : State → Except Fault State) : MicroStep := fun _ _ s => f s

/-! ## The macros (R137) -/

/-- `CtlrSet(m)`: one indivisible read-modify-write of CTLR. -/
def ctlrSet (bit : Config → Nat) : MicroStep :=
  actOrFault fun s => regWriteCtlr (regReadCtlr s ||| maskOf (bit s.cfg)) s

/-- `CtlrClr(m)`: one indivisible read-modify-write of CTLR. -/
def ctlrClr (bit : Config → Nat) : MicroStep :=
  actOrFault fun s => regWriteCtlr (regReadCtlr s &&& ~~~(maskOf (bit s.cfg))) s

/-- `SpinNotBusy@k`: one poll of STATR; it stays at its own index while `BSY` reads 1. -/
def spinNotBusy : MicroStep := fun self _ s =>
  let w := regReadStatr s
  .ok { s with rt := w, spc := if bitOf w s.cfg.bsyBit then self else s.spc }

/-- `GuardLock`: ends the command when `LOCK` reads 1. -/
def guardLock : MicroStep := fun _ fin s =>
  let w := regReadCtlr s
  .ok { s with rt := w, spc := if bitOf w s.cfg.lockBit then fin else s.spc }

/-! ## Commands -/

/-- Whether a command's response carries `RES`: the result column of R93 (R104). -/
def hasResult : Op → Bool
  | .rdStatr | .rdCtlr | .ld8 | .ld16 | .ldob | .calcAddr | .isBusy | .isDone | .isWperr | .read16
  | .read8 | .readFloat | .decodeCell | .encodeCell | .readUser | .readRdpr | .readWrpr1 | .readWrpr0
  | .readData1 | .readData0 | .readData16 => true
  | .wrStatr | .wrCtlr | .wrKeyr | .wrObkeyr | .wrAddr | .st16 | .stob | .unlock | .unlockOb | .lock
  | .clearDone | .waitNotBusy | .waitDone | .erasePage | .program16 | .program8x2 | .programFloat
  | .writeOb16 | .writeOb8x2 => false

/-- What the response of a command carries (R104). -/
def responseOf (op : Op) (res : Word) : Response := if hasResult op then .value res else .done

/-- Acceptance of a command (R90, R138 (1)): `SEQ_OP`, `SPC <- 0`, `x[RA] <- a`, `x[RD] <- d`. -/
def State.accept (op : Op) (a d : Word) (s : State) : State :=
  { s with seqOp := some op, spc := 0, ra := a, rd := d, response := none }

/-- END of a command (R22, R138 (2)): the response is delivered and `SEQ_OP <- IDLE`. The sequencer
registers keep what the command left in them, where the spec leaves them any value (log 18). -/
def State.finish (op : Op) (s : State) : State :=
  { s with seqOp := none, response := some (responseOf op s.res) }

/-- SEQ's step (R138 (2)): the micro-step at `SPC`, then the end of the command if `SPC` = END. A fault
changes nothing but the mark (R138). -/
def seqStep (op : Op) (prog : List MicroStep) (s : State) : Except Fault State :=
  match prog[s.spc]? with
  | none => .ok (s.finish op)
  | some m =>
    match m s.spc prog.length { s with spc := s.spc + 1 } with
    | .error f => .error f
    | .ok s' => .ok (if prog.length ≤ s'.spc then s'.finish op else s')

/-- How the run of a command stops. -/
inductive RunEnd where
  /-- In this state, with no fault: the command has ended, was abandoned by RESET, or polls for ever. -/
  | stands (s : State)
  /-- A micro-step raised a fault; the state is the one it was taken in, which it leaves as it is (R138). -/
  | faulted (f : Fault) (s : State)
  deriving DecidableEq, Repr

/-- The step's outcome at the end of a run: a fault carries its code and nothing else (R217, log 9). -/
def RunEnd.outcome : RunEnd → Host.Outcome State Fault Refusal
  | .stands s => .next s
  | .faulted f _ => .fault f

/-- The state a run stops in. -/
def RunEnd.state : RunEnd → State
  | .stands s => s
  | .faulted _ s => s

/-- The run of a command by the order in `turns` (R138). Each entry gives its agent one step; an agent
that has none is passed over. HOST's only step while a command runs is RESET, when that is its next
action; it abandons the command (R241). When the order has run out SEQ goes on; a SEQ that has polled
in vain gives way to ENG (R5), and where nothing is pending it will never see a change (a hang, R219):
the command is left running, for RESET to end. The first argument bounds the number of steps; it is
never the reason the run stops (`runBound`). -/
def runTo (op : Op) (prog : List MicroStep) : Nat → State → RunEnd
  | 0, s => .stands s
  | n + 1, s =>
    match s.turns with
    | .host :: ts =>
      match s.host with
      | .reset :: rest => .stands (resetStep { s with turns := ts, host := rest })
      | _ => runTo op prog n { s with turns := ts }
    | .eng :: ts => runTo op prog n (engStep { s with turns := ts })
    | .seq :: ts =>
      match seqStep op prog { s with turns := ts } with
      | .error f => .faulted f s
      | .ok s' => if s'.seqOp.isNone then .stands s' else runTo op prog n s'
    | [] =>
      match seqStep op prog s with
      | .error f => .faulted f s
      | .ok s' =>
        if s'.seqOp.isNone then .stands s'
        else if s'.spc ≠ s.spc then runTo op prog n s'
        else if s'.pend = .none then .stands s'
        else runTo op prog n (engStep s')

/-- The outcome of the run of a command. -/
def drive (op : Op) (prog : List MicroStep) (n : Nat) (s : State) : Host.Outcome State Fault Refusal :=
  (runTo op prog n s).outcome

/-- More steps than any command takes: one for each entry of `turns`, and the longest micro-program (25
micro-steps, R22) with every wait polled twice. -/
def runBound (s : State) : Nat := s.turns.length + 64

/-- A command from its acceptance to its END (R90, R138). -/
def runCommand (op : Op) (prog : List MicroStep) (a d : Word) (s : State) :
    Host.Outcome State Fault Refusal :=
  drive op prog (runBound s) (s.accept op a d)

end Sys2Proof.Machine
end

