-- ==== Sys2Proof/Machine/AddressCalculator.lean ====
section
/-! DEFINITION. The AddressCalculator (spec R150 to R152). The one pure function is `calculateAddress`
(R151); nothing is checked (R152). -/

namespace Sys2Proof.Machine

/-- The micro-program of CALC_ADDR (R150).  -/
def progCalcAddr : List MicroStep :=
  [act fun s => { s with res := calculateAddress s.cfg s.ra }]

/-- `CALC_ADDR` (R150). -/
def execCalcAddr (a d : Word) (s : State) : Host.Outcome State Fault Refusal :=
  runCommand .calcAddr progCalcAddr a d s

end Sys2Proof.Machine
end

