-- ==== Sys2Proof/Machine/EraseEngine.lean ====
section
/-! DEFINITION. The EraseEngine (spec R175 to R177). -/

namespace Sys2Proof.Machine

/-- The micro-program of ERASE_PAGE (R175).  -/
def progErasePage : List MicroStep :=
  [guardLock,
   spinNotBusy,
   ctlrSet Config.perBit,
   actOrFault fun s => regWriteAddr s.ra s,
   ctlrSet Config.strtBit,
   spinNotBusy,
   ctlrClr Config.perBit]

/-- `ERASE_PAGE` (R175). -/
def execErasePage (a d : Word) (s : State) : Host.Outcome State Fault Refusal :=
  runCommand .erasePage progErasePage a d s

end Sys2Proof.Machine
end

