-- ==== Sys2Proof/Machine/LockController.lean ====
section
/-! DEFINITION. The LockController (spec R155 to R159): two two-key sequences and a lock. -/

namespace Sys2Proof.Machine

/-- The micro-program of UNLOCK (R155).  -/
def progUnlock : List MicroStep :=
  [act fun s => regWriteKeyr s.cfg.key1 s,
   act fun s => regWriteKeyr s.cfg.key2 s]

/-- `UNLOCK` (R155). -/
def execUnlock (a d : Word) (s : State) : Host.Outcome State Fault Refusal :=
  runCommand .unlock progUnlock a d s

/-- The micro-program of UNLOCK_OB (R156).  -/
def progUnlockOb : List MicroStep :=
  [act fun s => regWriteObkeyr s.cfg.obKey1 s,
   act fun s => regWriteObkeyr s.cfg.obKey2 s]

/-- `UNLOCK_OB` (R156). -/
def execUnlockOb (a d : Word) (s : State) : Host.Outcome State Fault Refusal :=
  runCommand .unlockOb progUnlockOb a d s

/-- The micro-program of LOCK (R157).  -/
def progLock : List MicroStep :=
  [ctlrSet Config.lockBit]

/-- `LOCK` (R157). -/
def execLock (a d : Word) (s : State) : Host.Outcome State Fault Refusal :=
  runCommand .lock progLock a d s

end Sys2Proof.Machine
end

