-- ==== Sys2Proof/Machine/OptionByteCodec.lean ====
section
/-! DEFINITION. The OptionByteCodec (spec R195 to R208): the cell code, the field reads, and the erase,
restore, rewrite sequence. -/

namespace Sys2Proof.Machine

/-- `x[RES] <- zext_32(decode(ObRead(c)))` (R197 to R202). -/
def readField (c : CellId) : MicroStep := act fun s =>
  let r := readOb c s
  { r.2 with res := zextByte (decodeCell r.1) }

/-- The micro-program of DECODE_CELL (R195).  -/
def progDecodeCell : List MicroStep :=
  [act fun s => { s with res := zextByte (decodeCell (lowHalf s.rd)) }]

/-- `DECODE_CELL` (R195). -/
def execDecodeCell (a d : Word) (s : State) : Host.Outcome State Fault Refusal :=
  runCommand .decodeCell progDecodeCell a d s

/-- The micro-program of ENCODE_CELL (R196).  -/
def progEncodeCell : List MicroStep :=
  [act fun s => { s with res := zextHalf (encodeCell (byteOperand s.rd)) }]

/-- `ENCODE_CELL` (R196). -/
def execEncodeCell (a d : Word) (s : State) : Host.Outcome State Fault Refusal :=
  runCommand .encodeCell progEncodeCell a d s

/-- The micro-program of READ_USER (R197).  -/
def progReadUser : List MicroStep :=
  [readField .user]

/-- `READ_USER` (R197). -/
def execReadUser (a d : Word) (s : State) : Host.Outcome State Fault Refusal :=
  runCommand .readUser progReadUser a d s

/-- The micro-program of READ_RDPR (R198).  -/
def progReadRdpr : List MicroStep :=
  [readField .rdpr]

/-- `READ_RDPR` (R198). -/
def execReadRdpr (a d : Word) (s : State) : Host.Outcome State Fault Refusal :=
  runCommand .readRdpr progReadRdpr a d s

/-- The micro-program of READ_WRPR1 (R199).  -/
def progReadWrpr1 : List MicroStep :=
  [readField .wrpr1]

/-- `READ_WRPR1` (R199). -/
def execReadWrpr1 (a d : Word) (s : State) : Host.Outcome State Fault Refusal :=
  runCommand .readWrpr1 progReadWrpr1 a d s

/-- The micro-program of READ_WRPR0 (R200).  -/
def progReadWrpr0 : List MicroStep :=
  [readField .wrpr0]

/-- `READ_WRPR0` (R200). -/
def execReadWrpr0 (a d : Word) (s : State) : Host.Outcome State Fault Refusal :=
  runCommand .readWrpr0 progReadWrpr0 a d s

/-- The micro-program of READ_DATA1 (R201).  -/
def progReadData1 : List MicroStep :=
  [readField .data1]

/-- `READ_DATA1` (R201). -/
def execReadData1 (a d : Word) (s : State) : Host.Outcome State Fault Refusal :=
  runCommand .readData1 progReadData1 a d s

/-- The micro-program of READ_DATA0 (R202).  -/
def progReadData0 : List MicroStep :=
  [readField .data0]

/-- `READ_DATA0` (R202). -/
def execReadData0 (a d : Word) (s : State) : Host.Outcome State Fault Refusal :=
  runCommand .readData0 progReadData0 a d s

/-- The micro-program of READ_DATA16 (R203). Two cell reads; each byte fails on its own. -/
def progReadData16 : List MicroStep :=
  [act fun s =>
    let r := readOb .data1 s
    { r.2 with rt := zextByte (decodeCell r.1) },
   act fun s =>
    let r := readOb .data0 s
    { r.2 with res := (s.rt <<< 8) ||| zextByte (decodeCell r.1) }]

/-- `READ_DATA16` (R203). -/
def execReadData16 (a d : Word) (s : State) : Host.Outcome State Fault Refusal :=
  runCommand .readData16 progReadData16 a d s

/-- The twenty-five micro-steps 0 to 24 of R204; the four reads into RS0 to RS3 leave RES alone (log 21). -/
def writeObSteps : List MicroStep :=
  [guardLock,
   spinNotBusy,
   act fun s => let r := readOb .user s; { r.2 with rs0 := r.1 },
   act fun s => let r := readOb .rdpr s; { r.2 with rs1 := r.1 },
   act fun s => let r := readOb .wrpr1 s; { r.2 with rs2 := r.1 },
   act fun s => let r := readOb .wrpr0 s; { r.2 with rs3 := r.1 },
   act fun s => { s with rb1 := highByte (lowHalf s.rd), rb0 := lowByte (lowHalf s.rd) },
   ctlrSet Config.oberBit,
   ctlrSet Config.strtBit,
   spinNotBusy,
   ctlrClr Config.oberBit,
   ctlrSet Config.obpgBit,
   actOrFault fun s => writeOb .user s.rs0 s,
   spinNotBusy,
   actOrFault fun s => writeOb .rdpr s.rs1 s,
   spinNotBusy,
   actOrFault fun s => writeOb .wrpr0 s.rs3 s,
   spinNotBusy,
   actOrFault fun s => writeOb .wrpr1 s.rs2 s,
   spinNotBusy,
   actOrFault fun s => writeOb .data1 (encodeCell s.rb1) s,
   spinNotBusy,
   actOrFault fun s => writeOb .data0 (encodeCell s.rb0) s,
   spinNotBusy,
   ctlrClr Config.obpgBit]

/-- The micro-program of WRITE_OB_16 (R204).  -/
def progWriteOb16 : List MicroStep :=
  writeObSteps

/-- `WRITE_OB_16` (R204). -/
def execWriteOb16 (a d : Word) (s : State) : Host.Outcome State Fault Refusal :=
  runCommand .writeOb16 progWriteOb16 a d s

/-- The micro-program of WRITE_OB_8X2 (R205). The two bytes already stand packed in `d[15:0]` (R95, R205). -/
def progWriteOb8x2 : List MicroStep :=
  writeObSteps

/-- `WRITE_OB_8X2` (R205). -/
def execWriteOb8x2 (a d : Word) (s : State) : Host.Outcome State Fault Refusal :=
  runCommand .writeOb8x2 progWriteOb8x2 a d s

end Sys2Proof.Machine
end

