-- ==== Sys2Proof/Machine/Primitives.lean ====
section
/-! DEFINITION. The twelve primitive commands (spec R120 to R131): each is "the one-step micro-program
made of its transaction" (R138). -/

namespace Sys2Proof.Machine

/-- The micro-program of RD_STATR (R120).  -/
def progRdStatr : List MicroStep :=
  [act fun s => { s with res := regReadStatr s }]

/-- `RD_STATR` (R120). -/
def execRdStatr (a d : Word) (s : State) : Host.Outcome State Fault Refusal :=
  runCommand .rdStatr progRdStatr a d s

/-- The micro-program of WR_STATR (R121).  -/
def progWrStatr : List MicroStep :=
  [act fun s => regWriteStatr s.rd s]

/-- `WR_STATR` (R121). -/
def execWrStatr (a d : Word) (s : State) : Host.Outcome State Fault Refusal :=
  runCommand .wrStatr progWrStatr a d s

/-- The micro-program of RD_CTLR (R122).  -/
def progRdCtlr : List MicroStep :=
  [act fun s => { s with res := regReadCtlr s }]

/-- `RD_CTLR` (R122). -/
def execRdCtlr (a d : Word) (s : State) : Host.Outcome State Fault Refusal :=
  runCommand .rdCtlr progRdCtlr a d s

/-- The micro-program of WR_CTLR (R123).  -/
def progWrCtlr : List MicroStep :=
  [actOrFault fun s => regWriteCtlr s.rd s]

/-- `WR_CTLR` (R123). -/
def execWrCtlr (a d : Word) (s : State) : Host.Outcome State Fault Refusal :=
  runCommand .wrCtlr progWrCtlr a d s

/-- The micro-program of WR_KEYR (R124).  -/
def progWrKeyr : List MicroStep :=
  [act fun s => regWriteKeyr s.rd s]

/-- `WR_KEYR` (R124). -/
def execWrKeyr (a d : Word) (s : State) : Host.Outcome State Fault Refusal :=
  runCommand .wrKeyr progWrKeyr a d s

/-- The micro-program of WR_OBKEYR (R125).  -/
def progWrObkeyr : List MicroStep :=
  [act fun s => regWriteObkeyr s.rd s]

/-- `WR_OBKEYR` (R125). -/
def execWrObkeyr (a d : Word) (s : State) : Host.Outcome State Fault Refusal :=
  runCommand .wrObkeyr progWrObkeyr a d s

/-- The micro-program of WR_ADDR (R126).  -/
def progWrAddr : List MicroStep :=
  [actOrFault fun s => regWriteAddr s.rd s]

/-- `WR_ADDR` (R126). -/
def execWrAddr (a d : Word) (s : State) : Host.Outcome State Fault Refusal :=
  runCommand .wrAddr progWrAddr a d s

/-- `x[RES] <- zext_32(MemRead(x[RA], 1))` (R127, R191). -/
def loadByte : MicroStep := actOrFault fun s =>
  match memRead8 s.ra s with
  | .error f => .error f
  | .ok (v, s) => .ok { s with res := zextByte v }

/-- `x[RES] <- zext_32(MemRead(x[RA], 2))` (R128, R190). -/
def loadHalf : MicroStep := actOrFault fun s =>
  match memRead16 s.ra s with
  | .error f => .error f
  | .ok (v, s) => .ok { s with res := zextHalf v }

/-- `MemWrite(x[RA], 2, x[RD][15:0])` (R129, R180). -/
def storeHalf : MicroStep := actOrFault fun s => memWrite16 s.ra (lowHalf s.rd) s

/-- The micro-program of LD8 (R127).  -/
def progLd8 : List MicroStep :=
  [loadByte]

/-- `LD8` (R127). -/
def execLd8 (a d : Word) (s : State) : Host.Outcome State Fault Refusal :=
  runCommand .ld8 progLd8 a d s

/-- The micro-program of LD16 (R128).  -/
def progLd16 : List MicroStep :=
  [loadHalf]

/-- `LD16` (R128). -/
def execLd16 (a d : Word) (s : State) : Host.Outcome State Fault Refusal :=
  runCommand .ld16 progLd16 a d s

/-- The micro-program of ST16 (R129).  -/
def progSt16 : List MicroStep :=
  [storeHalf]

/-- `ST16` (R129). -/
def execSt16 (a d : Word) (s : State) : Host.Outcome State Fault Refusal :=
  runCommand .st16 progSt16 a d s

/-- The micro-program of LDOB (R130). The cell is raw, check byte included. -/
def progLdob : List MicroStep :=
  [actOrFault fun s =>
    match obRead (cellOperand s.ra) s with
    | .error f => .error f
    | .ok (v, s) => .ok { s with res := zextHalf v }]

/-- `LDOB` (R130). -/
def execLdob (a d : Word) (s : State) : Host.Outcome State Fault Refusal :=
  runCommand .ldob progLdob a d s

/-- The micro-program of STOB (R131). The value is stored raw. -/
def progStob : List MicroStep :=
  [actOrFault fun s => obWrite (cellOperand s.ra) (lowHalf s.rd) s]

/-- `STOB` (R131). -/
def execStob (a d : Word) (s : State) : Host.Outcome State Fault Refusal :=
  runCommand .stob progStob a d s

end Sys2Proof.Machine
end

