-- ==== Sys2Proof/Machine/ProgramEngine.lean ====
section
/-! DEFINITION. The ProgramEngine (spec R180 to R184). -/

namespace Sys2Proof.Machine

/-- The six micro-steps of `program_16` (R180), which the delegating commands write out in line (R137):
the data is `x[RD][15:0]`. -/
def program16Steps : List MicroStep :=
  [guardLock,
   spinNotBusy,
   ctlrSet Config.pgBit,
   storeHalf,
   spinNotBusy,
   ctlrClr Config.pgBit]

/-- The micro-program of PROGRAM_16 (R180).  -/
def progProgram16 : List MicroStep :=
  program16Steps

/-- `PROGRAM_16` (R180). -/
def execProgram16 (a d : Word) (s : State) : Host.Outcome State Fault Refusal :=
  runCommand .program16 progProgram16 a d s

/-- The micro-program of PROGRAM_8X2 (R181). The two bytes already stand packed in `d[15:0]` (R95, R181). -/
def progProgram8x2 : List MicroStep :=
  program16Steps

/-- `PROGRAM_8X2` (R181). -/
def execProgram8x2 (a d : Word) (s : State) : Host.Outcome State Fault Refusal :=
  runCommand .program8x2 progProgram8x2 a d s

/-- The micro-program of PROGRAM_FLOAT (R182). Two `program_16`, the low half at `a`, then the high half at `a + 2` (R97). -/
def progProgramFloat : List MicroStep :=
  program16Steps ++
  [act fun s => { s with ra := s.ra + 2#32, rd := s.rd >>> 16 }] ++
  program16Steps

/-- `PROGRAM_FLOAT` (R182). -/
def execProgramFloat (a d : Word) (s : State) : Host.Outcome State Fault Refusal :=
  runCommand .programFloat progProgramFloat a d s

end Sys2Proof.Machine
end

