-- ==== Sys2Proof/Machine/ReadAccessor.lean ====
section
/-! DEFINITION. The ReadAccessor (spec R190 to R193): unconditional reads; none tests a lock or waits. -/

namespace Sys2Proof.Machine

/-- The micro-program of READ_16 (R190).  -/
def progRead16 : List MicroStep :=
  [loadHalf]

/-- `READ_16` (R190). -/
def execRead16 (a d : Word) (s : State) : Host.Outcome State Fault Refusal :=
  runCommand .read16 progRead16 a d s

/-- The micro-program of READ_8 (R191).  -/
def progRead8 : List MicroStep :=
  [loadByte]

/-- `READ_8` (R191). -/
def execRead8 (a d : Word) (s : State) : Host.Outcome State Fault Refusal :=
  runCommand .read8 progRead8 a d s

/-- The micro-program of READ_FLOAT (R192). The low half, at `a`, then the high half, at `a + 2` (R97). -/
def progReadFloat : List MicroStep :=
  [actOrFault fun s =>
    match memRead16 s.ra s with
    | .error f => .error f
    | .ok (v, s) => .ok { s with rt := zextHalf v },
   actOrFault fun s =>
    match memRead16 (s.ra + 2#32) s with
    | .error f => .error f
    | .ok (v, s) => .ok { s with res := (zextHalf v <<< 16) ||| s.rt }]

/-- `READ_FLOAT` (R192). -/
def execReadFloat (a d : Word) (s : State) : Host.Outcome State Fault Refusal :=
  runCommand .readFloat progReadFloat a d s

end Sys2Proof.Machine
end

