-- ==== Sys2Proof/Machine/StatusMonitor.lean ====
section
/-! DEFINITION. The StatusMonitor (spec R165 to R171): flag reads, the clear of the done flag, and the two
unbounded waits. -/

namespace Sys2Proof.Machine

/-- `x[RT] <- RegRead(STATR); x[RES] <- zext_32(x[RT][bit])` (R165 to R167). -/
def readFlag (bit : Config → Nat) : MicroStep := act fun s =>
  let w := regReadStatr s
  { s with rt := w, res := zextBit (bitOf w (bit s.cfg)) }

/-- `RegWrite(STATR, M_EOP)`: the word has the `EOP` bit and no other (R168, R170). -/
def clearDone : MicroStep := act fun s => regWriteStatr (maskOf s.cfg.eopBit) s

/-- Micro-step 0 of WAIT_DONE: one poll; both conditions are taken from the same STATR read (R170). -/
def spinDone : MicroStep := fun self _ s =>
  let w := regReadStatr s
  .ok { s with
    rt := w
    spc := if !(bitOf w s.cfg.bsyBit) && bitOf w s.cfg.eopBit then s.spc else self }

/-- The micro-program of IS_BUSY (R165).  -/
def progIsBusy : List MicroStep :=
  [readFlag Config.bsyBit]

/-- `IS_BUSY` (R165). -/
def execIsBusy (a d : Word) (s : State) : Host.Outcome State Fault Refusal :=
  runCommand .isBusy progIsBusy a d s

/-- The micro-program of IS_DONE (R166).  -/
def progIsDone : List MicroStep :=
  [readFlag Config.eopBit]

/-- `IS_DONE` (R166). -/
def execIsDone (a d : Word) (s : State) : Host.Outcome State Fault Refusal :=
  runCommand .isDone progIsDone a d s

/-- The micro-program of IS_WPERR (R167).  -/
def progIsWperr : List MicroStep :=
  [readFlag Config.wrprterrBit]

/-- `IS_WPERR` (R167). -/
def execIsWperr (a d : Word) (s : State) : Host.Outcome State Fault Refusal :=
  runCommand .isWperr progIsWperr a d s

/-- The micro-program of CLEAR_DONE (R168).  -/
def progClearDone : List MicroStep :=
  [clearDone]

/-- `CLEAR_DONE` (R168). -/
def execClearDone (a d : Word) (s : State) : Host.Outcome State Fault Refusal :=
  runCommand .clearDone progClearDone a d s

/-- The micro-program of WAIT_NOT_BUSY (R169).  -/
def progWaitNotBusy : List MicroStep :=
  [spinNotBusy]

/-- `WAIT_NOT_BUSY` (R169). -/
def execWaitNotBusy (a d : Word) (s : State) : Host.Outcome State Fault Refusal :=
  runCommand .waitNotBusy progWaitNotBusy a d s

/-- The micro-program of WAIT_DONE (R170).  -/
def progWaitDone : List MicroStep :=
  [spinDone, clearDone]

/-- `WAIT_DONE` (R170). -/
def execWaitDone (a d : Word) (s : State) : Host.Outcome State Fault Refusal :=
  runCommand .waitDone progWaitDone a d s

end Sys2Proof.Machine
end

