-- ==== Sys2Proof/Machine/Dispatch.lean ====
section
/-! DEFINITION. One arm per command of spec R93: its meaning, on a block that accepts it. -/

namespace Sys2Proof.Machine

def exec (i : Instr) (s : State) : Host.Outcome State Fault Refusal :=
  match i with
  | .rdStatr a d => Sys2Proof.Machine.execRdStatr a d s
  | .wrStatr a d => Sys2Proof.Machine.execWrStatr a d s
  | .rdCtlr a d => Sys2Proof.Machine.execRdCtlr a d s
  | .wrCtlr a d => Sys2Proof.Machine.execWrCtlr a d s
  | .wrKeyr a d => Sys2Proof.Machine.execWrKeyr a d s
  | .wrObkeyr a d => Sys2Proof.Machine.execWrObkeyr a d s
  | .wrAddr a d => Sys2Proof.Machine.execWrAddr a d s
  | .ld8 a d => Sys2Proof.Machine.execLd8 a d s
  | .ld16 a d => Sys2Proof.Machine.execLd16 a d s
  | .st16 a d => Sys2Proof.Machine.execSt16 a d s
  | .ldob a d => Sys2Proof.Machine.execLdob a d s
  | .stob a d => Sys2Proof.Machine.execStob a d s
  | .calcAddr a d => Sys2Proof.Machine.execCalcAddr a d s
  | .unlock a d => Sys2Proof.Machine.execUnlock a d s
  | .unlockOb a d => Sys2Proof.Machine.execUnlockOb a d s
  | .lock a d => Sys2Proof.Machine.execLock a d s
  | .isBusy a d => Sys2Proof.Machine.execIsBusy a d s
  | .isDone a d => Sys2Proof.Machine.execIsDone a d s
  | .isWperr a d => Sys2Proof.Machine.execIsWperr a d s
  | .clearDone a d => Sys2Proof.Machine.execClearDone a d s
  | .waitNotBusy a d => Sys2Proof.Machine.execWaitNotBusy a d s
  | .waitDone a d => Sys2Proof.Machine.execWaitDone a d s
  | .erasePage a d => Sys2Proof.Machine.execErasePage a d s
  | .program16 a d => Sys2Proof.Machine.execProgram16 a d s
  | .program8x2 a d => Sys2Proof.Machine.execProgram8x2 a d s
  | .programFloat a d => Sys2Proof.Machine.execProgramFloat a d s
  | .read16 a d => Sys2Proof.Machine.execRead16 a d s
  | .read8 a d => Sys2Proof.Machine.execRead8 a d s
  | .readFloat a d => Sys2Proof.Machine.execReadFloat a d s
  | .decodeCell a d => Sys2Proof.Machine.execDecodeCell a d s
  | .encodeCell a d => Sys2Proof.Machine.execEncodeCell a d s
  | .readUser a d => Sys2Proof.Machine.execReadUser a d s
  | .readRdpr a d => Sys2Proof.Machine.execReadRdpr a d s
  | .readWrpr1 a d => Sys2Proof.Machine.execReadWrpr1 a d s
  | .readWrpr0 a d => Sys2Proof.Machine.execReadWrpr0 a d s
  | .readData1 a d => Sys2Proof.Machine.execReadData1 a d s
  | .readData0 a d => Sys2Proof.Machine.execReadData0 a d s
  | .readData16 a d => Sys2Proof.Machine.execReadData16 a d s
  | .writeOb16 a d => Sys2Proof.Machine.execWriteOb16 a d s
  | .writeOb8x2 a d => Sys2Proof.Machine.execWriteOb8x2 a d s

end Sys2Proof.Machine
end

