-- ==== Sys2Proof/Machine/Agents.lean ====
section
/-! DEFINITION. The three agents of spec R4 and the choice among them (R138): the micro-step relation
itself (`agentStep`), the resumption of a command that is still running, and the step of the whole block,
in which HOST's command is one step from acceptance to END (log 1). -/

namespace Sys2Proof.Machine

/-- The micro-program of a command (R22). -/
def progOf : Op → List MicroStep
  | .rdStatr => progRdStatr
  | .wrStatr => progWrStatr
  | .rdCtlr => progRdCtlr
  | .wrCtlr => progWrCtlr
  | .wrKeyr => progWrKeyr
  | .wrObkeyr => progWrObkeyr
  | .wrAddr => progWrAddr
  | .ld8 => progLd8
  | .ld16 => progLd16
  | .st16 => progSt16
  | .ldob => progLdob
  | .stob => progStob
  | .calcAddr => progCalcAddr
  | .unlock => progUnlock
  | .unlockOb => progUnlockOb
  | .lock => progLock
  | .isBusy => progIsBusy
  | .isDone => progIsDone
  | .isWperr => progIsWperr
  | .clearDone => progClearDone
  | .waitNotBusy => progWaitNotBusy
  | .waitDone => progWaitDone
  | .erasePage => progErasePage
  | .program16 => progProgram16
  | .program8x2 => progProgram8x2
  | .programFloat => progProgramFloat
  | .read16 => progRead16
  | .read8 => progRead8
  | .readFloat => progReadFloat
  | .decodeCell => progDecodeCell
  | .encodeCell => progEncodeCell
  | .readUser => progReadUser
  | .readRdpr => progReadRdpr
  | .readWrpr1 => progReadWrpr1
  | .readWrpr0 => progReadWrpr0
  | .readData1 => progReadData1
  | .readData0 => progReadData0
  | .readData16 => progReadData16
  | .writeOb16 => progWriteOb16
  | .writeOb8x2 => progWriteOb8x2

/-- What one agent's step does where steps are enabled at all (R138): (1) HOST-command when the port is
ready, (2) SEQ's micro-step, (3) ENG's completion, (4) HOST-reset in any state. An agent with no enabled
step changes nothing. -/
def agentMove (g : Agent) (s : State) : Host.Outcome State Fault Refusal :=
  match g with
  | .seq =>
    match s.seqOp with
    | none => .next s
    | some op =>
      match seqStep op (progOf op) s with
      | .error f => .fault f
      | .ok s' => .next s'
  | .eng => .next (engStep s)
  | .host =>
    match s.host with
    | [] => .next s
    | .reset :: rest => .next (resetStep { s with host := rest })
    | .command w :: rest =>
      if s.seqOp.isSome then .next s
      else
        match decode w with
        | .error _ => .refused .illegalCommand
        | .ok i => .next (({ s with host := rest } : State).accept i.op i.a i.d)

/-- One step of one agent, the relation of R138: the steps are enabled "with `FAULT` = NONE", and once a
fault is marked "no step is enabled afterwards". It does not read `turns`: whoever is named moves. -/
def agentStep (g : Agent) (s : State) : Host.Outcome State Fault Refusal :=
  match s.fault with
  | some f => .fault f
  | none => agentMove g s

/-- The steps of a list of agents, one after another, until a fault or a refusal. -/
def runAgents : List Agent → State → Host.Outcome State Fault Refusal
  | [], s => .next s
  | g :: gs, s =>
    match agentStep g s with
    | .next s' => runAgents gs s'
    | .fault f => .fault f
    | .refused r => .refused r

/-- HOST moves on an idle block: RESET, or a command from acceptance to END, or nothing when its list is
empty (R138 (1), (4), R11; log 11). A reserved opcode is refused (R102). -/
def hostMove (s : State) : Host.Outcome State Fault Refusal :=
  match s.host with
  | [] => .next s
  | .reset :: rest => .next (resetStep { s with host := rest })
  | .command w :: rest =>
    match decode w with
    | .error _ => .refused .illegalCommand
    | .ok i => exec i { s with host := rest }

/-- The port is ready: no command runs (R90). Whoever `turns` names moves; with no order left HOST
moves, and where HOST has nothing left to do ENG completes what is pending (R5, R11). -/
def idleMove (s : State) : Host.Outcome State Fault Refusal :=
  match s.turns with
  | .host :: ts => hostMove { s with turns := ts }
  | .seq :: ts => .next { s with turns := ts }
  | .eng :: ts => .next (engStep { s with turns := ts })
  | [] => if s.host = [] then .next (engStep s) else hostMove s

/-- A command is still running, because it polled in vain (R219): with no order left RESET ends it if
that is HOST's next action (R171), else it runs on from `SPC`. -/
def busyMove (op : Op) (s : State) : Host.Outcome State Fault Refusal :=
  match s.turns, s.host with
  | [], .reset :: rest => .next (resetStep { s with host := rest })
  | _, _ => drive op (progOf op) (runBound s) s

/-- One step of the block. Once a fault is marked no step is enabled (R138, R40). -/
def blockStep (s : State) : Host.Outcome State Fault Refusal :=
  match s.fault with
  | some f => .fault f
  | none =>
    match s.seqOp with
    | none => idleMove s
    | some op => busyMove op s

/-- The state in which the very next step accepts and runs a given command word: the port ready, no
fault marked, no other agent due to move first, the word at the head of HOST's list. -/
def presentWord (s : State) (w : CommandWord) : State :=
  { s with seqOp := none, fault := none, turns := [], host := .command w :: s.host }

/-- The mark of a fault: it "sets FAULT and nothing else" (R138), and keeps the first code (R40). -/
def State.marked (s : State) (f : Fault) : State := { s with fault := some (s.fault.getD f) }

/-- The state after an outcome that was reached from `s`, with `FAULT` in it: the next state, or `s` with
the fault marked (R138, R40); a refused word leaves code 1 (R217, log 17). -/
def markOutcome (s : State) : Host.Outcome State Fault Refusal → State
  | .next s' => s'
  | .fault f => s.marked f
  | .refused _ => s.marked .illegalCommand

/-- One step of one agent with `FAULT` in the state (R138): a step that faults sets the mark and nothing
else, and once the mark is set no step changes anything. -/
def markedAgentStep (g : Agent) (s : State) : State := markOutcome s (agentStep g s)

/-- The steps of a list of agents, one after another, with `FAULT` in the state. -/
def runMarked : List Agent → State → State
  | [], s => s
  | g :: gs, s => runMarked gs (markedAgentStep g s)

/-- The state in which a step of the block that faults or is refused raises it: for a command, the one its
faulting micro-step was taken in, with all that the micro-steps before it did. -/
def stopState (s : State) : State :=
  match s.seqOp, s.host with
  | some op, _ => (runTo op (progOf op) (runBound s) s).state
  | none, .command w :: rest =>
    match decode w with
    | .error _ => s
    | .ok i =>
      let s := { s with host := rest, turns := s.turns.tail }
      (runTo i.op (progOf i.op) (runBound s) (s.accept i.op i.a i.d)).state
  | none, _ => s

/-- A step of the block with `FAULT` in the state: a fault is marked in the state it was raised in. -/
def markedStep (s : State) : State :=
  match s.fault with
  | some _ => s
  | none => markOutcome (stopState s) (blockStep s)

end Sys2Proof.Machine
end

