-- ==== Sys2Proof/Machine/Step.lean ====
section
/-! DEFINITION. The machine's step (spec R138), and where the host puts a word for the next step to run
(log 3, log 12). -/

namespace Sys2Proof.Machine

/-- One step of the block. -/
def step (s : State) : Host.Outcome State Fault Refusal := blockStep s

/-- The state whose very next step runs the command a table word spells: the word stands at the head of
HOST's action list, the command port is ready, and no other agent is due to move first (R90, R138). -/
def State.withFetchWord (s : State) (nbits w : Nat) : State := presentWord s (tableWord nbits w)

end Sys2Proof.Machine
end

