-- ==== Sys2Proof/Safety.lean ====
section
/-! DEFINITION. The terms claims are stated in: a run without a fault, the invariant of reached states
(spec R37), the conditions commands are issued under, and when two outcomes count as the same. -/

namespace Sys2Proof.Machine

/-- No fault is marked: the premise of every claim about a run (R40). -/
abbrev State.Safe (s : State) : Prop := s.fault = none

/-- No order is imposed on the agents: SEQ goes on, and ENG steps when SEQ polls in vain (log 2). -/
abbrev State.Calm (s : State) : Prop := s.turns = []

/-- SEQ is the next to move: the order is empty or names it first. -/
abbrev State.SeqFirst (s : State) : Prop :=
  s.turns.head? ≠ some Agent.host ∧ s.turns.head? ≠ some Agent.eng

/-- RESET cannot be taken while the next command runs: the order gives HOST no turn, or HOST's next
action is not RESET. -/
abbrev State.ResetNotDue (s : State) : Prop :=
  Agent.host ∉ s.turns ∨ s.host.head? ≠ some HostAction.reset

/-- Nothing is pending. -/
abbrev State.Rested (s : State) : Prop := s.bsy = false ∧ s.pend = Pending.none ∧ s.strt = false

/-- All four mode bits are 0. -/
abbrev State.ModesClear (s : State) : Prop :=
  s.pg = false ∧ s.per = false ∧ s.obpg = false ∧ s.ober = false

/-- At most one mode bit is 1 (R37 (c)). -/
abbrev State.OneMode (s : State) : Prop := modeCount s.pg s.per s.obpg s.ober ≤ 1

/-- "Unlocked, idle" of the test vectors, with parameters that keep their constraints. -/
structure State.UnlockedIdle (s : State) : Prop where
  cfg_ok : s.cfg.Ok
  unlocked : s.lock = false
  rested : s.Rested
  modes : s.ModesClear

/-- The pending operation will change the main cell at address `a` (R76): it erases its page, or
programs the cell. -/
abbrev State.UnderMain (s : State) (a : Word) : Prop :=
  s.pend = .erase (pageOf s.cfg a) ∨ ∃ v, s.pend = .prog (mainCellOf s.cfg a) v

/-- The pending operation will change option cell `c` (R76). -/
abbrev State.UnderOb (s : State) (c : CellId) : Prop :=
  s.pend = .obErase ∨ ∃ v, s.pend = .obProg c v

/-- A state after a command has ended: its operands are in RA and RD, `SPC` stands at END, the response
is delivered, the port is ready; the entry of the order that let SEQ move is used up. Nothing else
differs from `s`. -/
def State.ended (s : State) (a d : Word) (fin : Nat) (r : Response) : State :=
  { s with
    turns := s.turns.tail
    seqOp := none
    spc := fin
    ra := a
    rd := d
    response := some r }

/-- The invariants of every state reached from reset without a fault (R37), with the range of what is
pending (R32), the policy's effect on the key FSMs (R31), the range of `SPC` (R20), and main flash in
its canonical form, listing only addresses that exist. -/
structure State.Inv (s : State) : Prop where
  cfg_ok : s.cfg.Ok
  busy_iff_pending : s.bsy = true ↔ s.pend ≠ .none
  busy_unlocked : s.bsy = true → s.lock = false
  one_mode : s.OneMode
  start_erases : s.strt = true → s.pend = .obErase ∨ ∃ p, s.pend = .erase p
  erase_mode : ∀ p, s.pend = .erase p → s.per = true ∧ p < s.cfg.flashSize / pageSize
  prog_mode : ∀ i v, s.pend = .prog i v → s.pg = true ∧ i < s.cfg.flashSize / 2
  obErase_mode : s.pend = .obErase → s.ober = true ∧ s.obl = false
  obProg_mode : ∀ c v, s.pend = .obProg c v → s.obpg = true ∧ s.obl = false
  never_dead : s.cfg.keyFailPolicy = .restart → s.mkFsm ≠ .dead ∧ s.okFsm ≠ .dead
  spc_small : s.spc ≤ 25
  main_wf : s.main.wf = true
  main_exists : ∀ c ∈ s.main,
    s.cfg.flashBase.toNat ≤ c.1 ∧ c.1 < s.cfg.flashBase.toNat + s.cfg.flashSize

/-- Two outcomes agree, but for what is left of the order of the agents. -/
def sameUpToTurns (o o' : Host.Outcome State Fault Refusal) : Prop :=
  match o, o' with
  | .next t, .next u => { t with turns := [] } = { u with turns := [] }
  | .fault f, .fault g => f = g
  | .refused r, .refused q => r = q
  | _, _ => False

/-- Two outcomes agree, but for the operand registers RA and RD. -/
def sameUpToOperands (o o' : Host.Outcome State Fault Refusal) : Prop :=
  match o, o' with
  | .next t, .next u => { t with ra := 0#32, rd := 0#32 } = { u with ra := 0#32, rd := 0#32 }
  | .fault f, .fault g => f = g
  | .refused r, .refused q => r = q
  | _, _ => False

/-- The commands that open with the lock guard (R158). -/
def guarded : Op → Bool
  | .erasePage | .program16 | .program8x2 | .programFloat | .writeOb16 | .writeOb8x2 => true
  | _ => false

end Sys2Proof.Machine
end

