-- ==== Sys2Proof/Certificates/Slice0/Obligations.lean ====
section
/-! DEFINITION. The statements for the provers, formalising the numbered rules of the spec. Each says
what a command does from acceptance to END, or what the block does in one step. A statement whose
result is an equation between states says the whole frame: every field not named keeps its value.
Three of the fields such an equation names are the model's own: `turns` (whose first entry, if any, lets
SEQ move: log 2), `response` (what R104 says the response carries: log 8) and `draws` (where a value is a
draw, it is `Config.any16` at that counter, a value nothing constrains: log 5). A sequencer register that
such an equation does not name keeps its value, where the spec leaves it any value between commands: the
model's choice (logs 18 and 21). -/

open Sys2Proof Sys2Proof.Machine

/-! ## Encoding -/

/-- R91, R92: every command, with every operand, is read back from its word. -/
def Obligations.DecodeOfEncode : Prop := ∀ i : Instr, decode (encode i) = .ok i

/-- R91: no bit of a word that decodes is dropped. -/
def Obligations.EncodeOfDecode : Prop :=
  ∀ (w : CommandWord) (i : Instr), decode w = .ok i → encode i = w

/-- R92, R93, R102: decoding tests `op` alone; the words refused are those whose `op` no command has,
216 opcodes in all, among them the all-zero and the all-ones word; and the step that meets such a word
refuses it as an illegal command. -/
def Obligations.ReservedOpcodesRefused : Prop :=
  (∀ w : CommandWord,
    (∀ op : Op, op.code ≠ opField w) ↔ decode w = .error (.reservedOpcode (opField w))) ∧
  ((List.range 256).filter fun n => (Op.ofCode (BitVec.ofNat 8 n)).isNone).length = 216 ∧
  (∃ e, decode 0#72 = .error e) ∧ (∃ e, decode (BitVec.allOnes 72) = .error e) ∧
  (∀ (s : State) (w : CommandWord) (rest : List HostAction),
    s.Safe → s.seqOp = none → s.Calm → s.host = .command w :: rest →
    (∀ op : Op, op.code ≠ opField w) → step s = .refused .illegalCommand)

/-- R93 on words written out: `50 08003FCA 0000BEEF` is PROGRAM_16, and one word of each other unit. -/
def Obligations.DecodedSampleWords : Prop :=
  decode 0x5008003FCA0000BEEF#72 = .ok (.program16 0x08003FCA#32 0x0000BEEF#32) ∧
  decode 0x040000000000000042#72 = .ok (.wrCtlr 0#32 0x42#32) ∧
  decode 0x100000000A00000000#72 = .ok (.calcAddr 0xA#32 0#32) ∧
  decode 0x22FFFFFFFF00000001#72 = .ok (.lock 0xFFFFFFFF#32 1#32) ∧
  decode 0x350000000000000000#72 = .ok (.waitDone 0#32 0#32) ∧
  decode 0x4008003FC000000000#72 = .ok (.erasePage 0x08003FC0#32 0#32) ∧
  decode 0x6208003FC400000000#72 = .ok (.readFloat 0x08003FC4#32 0#32) ∧
  decode 0x790000000000001234#72 = .ok (.writeOb16 0#32 0x1234#32)

/-- R92: the operand bits a command does not use have no effect: but for RA and RD themselves, the
command runs as the one with those bits 0 does, in every state and under every order of the agents. -/
def Obligations.UnusedBitsHaveNoEffect : Prop :=
  ∀ (i : Instr) (s : State), sameUpToOperands (exec i s) (exec i.canonical s)

/-! ## The step and the three agents -/

/-- When the port is ready and HOST's next action is a word that decodes, and HOST is next to move, the step
accepts the word, as R138 (1) says, and runs its command to the end. That the accepting step also runs the
command is the model's choice (log 1), and so is the order that names HOST (`turns`, log 2). -/
def Obligations.StepRunsDecodedCommand : Prop :=
  ∀ (s : State) (w : CommandWord) (rest : List HostAction) (i : Instr),
    s.Safe → s.seqOp = none → s.host = .command w :: rest → decode w = .ok i →
    (s.turns = [] → step s = exec i { s with host := rest }) ∧
    (∀ ts, s.turns = .host :: ts → step s = exec i { s with host := rest, turns := ts })

/-- R74: an ENG turn before a command's first micro-step is ENG's step before the command. R138 (4), R241:
RESET taken there abandons the command, with no response and nothing running, and the controller is as
after reset. (The turn is an entry of the model's `turns`, log 2.) -/
def Obligations.TurnBeforeCommandIsTakenFirst : Prop :=
  (∀ (i : Instr) (s : State) (ts : List Agent),
    s.turns = .eng :: ts → exec i s = exec i (engStep { s with turns := ts })) ∧
  (∀ (i : Instr) (s : State) (ts : List Agent) (rest : List HostAction),
    s.turns = .host :: ts → s.host = .reset :: rest →
    ∃ t, exec i s = .next t ∧ t.seqOp = none ∧ t.response = none ∧ t.host = rest ∧ t.turns = ts ∧
      t.lock = true ∧ t.obl = true ∧ t.pend = .none ∧ t.bsy = false ∧
      (s.pend = .none → t.main = s.main ∧ t.ob = s.ob))

/-- R138: what a command does in one step of this model is a run of the micro-step relation, from the
state in which HOST presents its word. -/
def Obligations.CommandIsRunOfAgentSteps : Prop :=
  ∀ (i : Instr) (s t : State), s.Safe → s.seqOp = none → exec i s = .next t →
    ∃ gs : List Agent,
      runAgents (.host :: gs) { s with host := .command (encode i) :: s.host, turns := [] } =
        .next { t with turns := [] }

/-- R4, R74, R258: from a state with nothing pending, the order of SEQ and ENG and the number of polls
make no difference to what any command does. -/
def Obligations.OrderDoesNotMatterFromRest : Prop :=
  ∀ (i : Instr) (s : State), s.cfg.Ok → s.Rested → s.ResetNotDue →
    sameUpToTurns (exec i s) (exec i { s with turns := [] })

/-- R219: a command that is left running is a WAIT_DONE with nothing pending and the done flag clear.
(That a hang is a next state with the command still running is the model's choice: log 10.) -/
def Obligations.OnlyWaitDoneHangs : Prop :=
  ∀ (i : Instr) (s t : State), s.Inv → exec i s = .next t → t.seqOp ≠ none →
    i.op = .waitDone ∧ t.seqOp = some .waitDone ∧ t.pend = .none ∧ t.eop = false

/-! ## Invariants -/

/-- R38: the state after reset meets the invariants of R37, for every value of the parameters that keeps the
constraints of R7; and so it does with the defaults, which are the family's (log 4). -/
def Obligations.ResetMeetsInvariant : Prop :=
  (∀ c : Config, c.Ok → State.Inv { State.reset with cfg := c }) ∧ State.reset.Inv

/-- R37: every step keeps the invariants. -/
def Obligations.StepKeepsInvariant : Prop :=
  ∀ s t : State, s.Inv → step s = .next t → t.Inv

/-- R37, R138: every step of every agent keeps the invariants, so they hold between the micro-steps of
a command too. -/
def Obligations.AgentStepKeepsInvariant : Prop :=
  ∀ (g : Agent) (s t : State), s.Inv → agentStep g s = .next t → t.Inv

/-- R37 (f): an operation command (opcodes 0x10 and up) that starts with all mode bits 0 leaves them all
0, in every state and under every order of the agents. -/
def Obligations.OperationsClearModeBits : Prop :=
  ∀ (i : Instr) (s t : State), 0x10 ≤ i.op.code.toNat → s.cfg.Ok → s.ModesClear →
    exec i s = .next t → t.ModesClear

/-- R33, R34: no micro-step of SEQ changes a cell. -/
def Obligations.SequencerChangesNoCell : Prop :=
  ∀ s t : State, agentStep .seq s = .next t → t.main = s.main ∧ t.ob = s.ob

/-- R29, R30: SEQ opens a lock only by writing its second key while the first stands accepted, and never
closes the option lock. -/
def Obligations.LocksOpenOnlyByKeys : Prop :=
  ∀ s t : State, agentStep .seq s = .next t →
    (s.lock = true → t.lock = false →
      s.mkFsm = .half ∧
      ((s.seqOp = some .wrKeyr ∧ s.rd = s.cfg.key2) ∨
       (s.seqOp = some .unlock ∧ (s.cfg.key1 = s.cfg.key2 ∨ s.spc = 1)))) ∧
    (s.obl = true → t.obl = false →
      s.okFsm = .half ∧
      ((s.seqOp = some .wrObkeyr ∧ s.rd = s.cfg.obKey2) ∨
       (s.seqOp = some .unlockOb ∧ (s.cfg.obKey1 = s.cfg.obKey2 ∨ s.spc = 1)))) ∧
    (s.obl = false → t.obl = false)

/-- R29, R225: while Locked no micro-step of SEQ starts an operation or writes a mode bit. -/
def Obligations.LockedStartsNothing : Prop :=
  ∀ s t : State, s.lock = true → agentStep .seq s = .next t →
    t.pend = s.pend ∧ t.bsy = s.bsy ∧ t.strt = s.strt ∧ t.pg = s.pg ∧ t.per = s.per ∧
    t.obpg = s.obpg ∧ t.ober = s.ober

/-- R30: no value a command returns depends on `OBL`, and no such command changes it. -/
def Obligations.NoValueDependsOnOptionLock : Prop :=
  ∀ (i : Instr) (s : State) (b : Bool), hasResult i.op = true → s.Calm →
    (∀ f, exec i s = .fault f → exec i { s with obl := b } = .fault f) ∧
    (∀ t, exec i s = .next t → exec i { s with obl := b } = .next { t with obl := b })

/-- R40, R138: once a fault is marked no step of the block or of an agent is enabled and nothing changes; an
agent's step that faults sets the mark and nothing else, and one that meets a reserved word leaves code 1
(log 17). A step of the block that faults marks the state its faulting micro-step was taken in: a run of
marked agent steps leads there, so all that the micro-steps before it did stands. -/
def Obligations.FaultMarkIsFirstAndFinal : Prop :=
  ∀ s : State,
    (∀ f, s.fault = some f → step s = .fault f ∧ markedStep s = s ∧
      ∀ g, agentStep g s = .fault f ∧ markedAgentStep g s = s) ∧
    (∀ g f, s.fault = none → agentStep g s = .fault f →
      markedAgentStep g s = { s with fault := some f }) ∧
    (∀ g, s.fault = none → agentStep g s = .refused .illegalCommand →
      markedAgentStep g s = { s with fault := some .illegalCommand }) ∧
    (s.fault = none → step s = .refused .illegalCommand →
      markedStep s = { s with fault := some .illegalCommand }) ∧
    (∀ f, s.fault = none → step s = .fault f →
      (markedStep s).fault = some f ∧
      ∃ gs : List Agent, runMarked gs { s with turns := [] } = { markedStep s with turns := [] })

/-! ## Primitive commands (40_controller_primitives.md) -/

/-- R120, R122: RD_STATR and RD_CTLR return each flag or field at its position, 0 elsewhere, in every state.
What the sequencer registers hold after END is the model's choice (log 18). -/
def Obligations.RegisterReadsReturnFields : Prop :=
  ∀ (a d : Word) (s : State), s.SeqFirst →
    let st := (zextBit s.bsy <<< s.cfg.bsyBit) ||| (zextBit s.eop <<< s.cfg.eopBit) |||
      (zextBit s.wrprterr <<< s.cfg.wrprterrBit)
    let ct := (zextBit s.pg <<< s.cfg.pgBit) ||| (zextBit s.per <<< s.cfg.perBit) |||
      (zextBit s.obpg <<< s.cfg.obpgBit) ||| (zextBit s.ober <<< s.cfg.oberBit) |||
      (zextBit s.strt <<< s.cfg.strtBit) ||| (zextBit s.lock <<< s.cfg.lockBit)
    exec (.rdStatr a d) s = .next { s.ended a d 1 (.value st) with res := st } ∧
    exec (.rdCtlr a d) s = .next { s.ended a d 1 (.value ct) with res := ct }

/-- R121: WR_STATR. What the sequencer registers hold after END is the model's choice (log 18). -/
def Obligations.WrStatrClearsWrittenOnes : Prop :=
  ∀ (a d : Word) (s : State), s.SeqFirst →
    exec (.wrStatr a d) s = .next { s.ended a d 1 .done with
      eop := if bitOf d s.cfg.eopBit then false else s.eop
      wrprterr := if bitOf d s.cfg.wrprterrBit then false else s.wrprterr }

/-- R123: WR_CTLR, all of its cases in its order: busy; locked; an undefined bit; two mode bits; then the
mode bits are written, and the lock bit, a page-erase start, an option-erase start or nothing follows. What
the sequencer registers hold after END is the model's choice (log 18). -/
def Obligations.WrCtlrFollowsItsTests : Prop :=
  ∀ (a d : Word) (s : State), s.SeqFirst →
    let modes := modeCount (bitOf d s.cfg.pgBit) (bitOf d s.cfg.perBit) (bitOf d s.cfg.obpgBit)
      (bitOf d s.cfg.oberBit)
    let written := { s.ended a d 1 .done with
      pg := bitOf d s.cfg.pgBit
      per := bitOf d s.cfg.perBit
      obpg := bitOf d s.cfg.obpgBit
      ober := bitOf d s.cfg.oberBit }
    (s.bsy = true → exec (.wrCtlr a d) s = .fault .busyWrite) ∧
    (s.bsy = false → s.lock = true → exec (.wrCtlr a d) s = .next (s.ended a d 1 .done)) ∧
    (s.bsy = false → s.lock = false → d &&& ~~~(ctlrDefined s.cfg) ≠ 0#32 →
      exec (.wrCtlr a d) s = .fault .illegalCtlr) ∧
    (s.bsy = false → s.lock = false → modes > 1 → exec (.wrCtlr a d) s = .fault .illegalCtlr) ∧
    (s.bsy = false → s.lock = false → d &&& ~~~(ctlrDefined s.cfg) = 0#32 → modes ≤ 1 →
      (bitOf d s.cfg.lockBit = true →
        exec (.wrCtlr a d) s = .next { written with lock := true }) ∧
      (bitOf d s.cfg.lockBit = false → bitOf d s.cfg.strtBit = false →
        exec (.wrCtlr a d) s = .next written) ∧
      (bitOf d s.cfg.lockBit = false → bitOf d s.cfg.strtBit = true →
        (bitOf d s.cfg.perBit = true → inMain s.cfg s.addr = false →
          exec (.wrCtlr a d) s = .fault .outOfRange) ∧
        (bitOf d s.cfg.perBit = true → inMain s.cfg s.addr = true → s.addr.toNat % 64 ≠ 0 →
          exec (.wrCtlr a d) s = .fault .misaligned) ∧
        (bitOf d s.cfg.perBit = true → inMain s.cfg s.addr = true → s.addr.toNat % 64 = 0 →
          exec (.wrCtlr a d) s = .next { written with
            pend := .erase (pageOf s.cfg s.addr), bsy := true, strt := true }) ∧
        (bitOf d s.cfg.perBit = false → bitOf d s.cfg.oberBit = true → s.obl = false →
          exec (.wrCtlr a d) s = .next { written with
            pend := .obErase, bsy := true, strt := true }) ∧
        (bitOf d s.cfg.perBit = false → (bitOf d s.cfg.oberBit = false ∨ s.obl = true) →
          exec (.wrCtlr a d) s = .next written)))

/-- R124: WR_KEYR steps the main key FSM. What the sequencer registers hold after END is the model's choice
(log 18). -/
def Obligations.WrKeyrStepsMainKeys : Prop :=
  ∀ (a d : Word) (s : State), s.SeqFirst →
    let fail : KeyFsm := if s.cfg.keyFailPolicy = .restart then .idle else .dead
    let e := s.ended a d 1 .done
    (s.mkFsm = .dead → exec (.wrKeyr a d) s = .next e) ∧
    (s.mkFsm = .idle →
      exec (.wrKeyr a d) s = .next { e with mkFsm := if d = s.cfg.key1 then .half else fail }) ∧
    (s.mkFsm = .half → d = s.cfg.key2 →
      exec (.wrKeyr a d) s = .next { e with lock := false, mkFsm := .idle }) ∧
    (s.mkFsm = .half → d ≠ s.cfg.key2 → exec (.wrKeyr a d) s = .next { e with mkFsm := fail })

/-- R125: WR_OBKEYR steps the option key FSM, unless it needs the main array Unlocked and it is not. What
the sequencer registers hold after END is the model's choice (log 18). -/
def Obligations.WrObkeyrStepsOptionKeys : Prop :=
  ∀ (a d : Word) (s : State), s.SeqFirst →
    let fail : KeyFsm := if s.cfg.keyFailPolicy = .restart then .idle else .dead
    let e := s.ended a d 1 .done
    let ignored := s.cfg.obKeyNeedsMainUnlocked = true ∧ s.lock = true
    (ignored → exec (.wrObkeyr a d) s = .next e) ∧
    (¬ignored →
      (s.okFsm = .dead → exec (.wrObkeyr a d) s = .next e) ∧
      (s.okFsm = .idle →
        exec (.wrObkeyr a d) s = .next { e with okFsm := if d = s.cfg.obKey1 then .half else fail }) ∧
      (s.okFsm = .half → d = s.cfg.obKey2 →
        exec (.wrObkeyr a d) s = .next { e with obl := false, okFsm := .idle }) ∧
      (s.okFsm = .half → d ≠ s.cfg.obKey2 →
        exec (.wrObkeyr a d) s = .next { e with okFsm := fail }))

/-- R126: WR_ADDR, locked or not. What the sequencer registers hold after END is the model's choice (log
18). -/
def Obligations.WrAddrStoresAddress : Prop :=
  ∀ (a d : Word) (s : State), s.SeqFirst →
    (s.bsy = true → exec (.wrAddr a d) s = .fault .busyWrite) ∧
    (s.bsy = false → exec (.wrAddr a d) s = .next { s.ended a d 1 .done with addr := d })

/-- R127, R191, R66, R76: LD8 and READ_8 return the byte at their address, in any lock state and while
busy; a byte of a cell under the pending operation is a draw. Outside main flash they fault. -/
def Obligations.ByteReadsReturnStoredByte : Prop :=
  ∀ (a d : Word) (s : State), s.cfg.Ok → s.SeqFirst →
    ∀ mk ∈ [Instr.ld8, Instr.read8],
      (inMain s.cfg a = false → exec (mk a d) s = .fault .outOfRange) ∧
      (inMain s.cfg a = true → ¬s.UnderMain a →
        let v := zextByte (s.mainByte a.toNat)
        exec (mk a d) s = .next { s.ended a d 1 (.value v) with res := v }) ∧
      (inMain s.cfg a = true → s.UnderMain a →
        let w := Config.any16 s.draws
        let v := zextByte (if bitOf a 0 then highByte w else lowByte w)
        exec (mk a d) s =
          .next { s.ended a d 1 (.value v) with res := v, draws := s.draws + 1 })

/-- R128, R190, R66, R76: LD16 and READ_16 return the cell at their address, the byte at the even
address its low byte; a cell under the pending operation is a draw. The range is tested before the
alignment (R221). -/
def Obligations.HalfReadsReturnStoredCell : Prop :=
  ∀ (a d : Word) (s : State), s.cfg.Ok → s.SeqFirst →
    ∀ mk ∈ [Instr.ld16, Instr.read16],
      (inMain s.cfg a = false → exec (mk a d) s = .fault .outOfRange) ∧
      (inMain s.cfg a = true → bitOf a 0 = true → exec (mk a d) s = .fault .misaligned) ∧
      (inMain s.cfg a = true → bitOf a 0 = false → ¬s.UnderMain a →
        let v := zextHalf (s.mainByte (a.toNat + 1) ++ s.mainByte a.toNat)
        exec (mk a d) s = .next { s.ended a d 1 (.value v) with res := v }) ∧
      (inMain s.cfg a = true → bitOf a 0 = false → s.UnderMain a →
        let v := zextHalf (Config.any16 s.draws)
        exec (mk a d) s =
          .next { s.ended a d 1 (.value v) with res := v, draws := s.draws + 1 })

/-- R129: ST16: range, alignment, busy, then dropped when Locked or `PG` is 0, else accepted. What the
sequencer registers hold after END is the model's choice (log 18). -/
def Obligations.St16StartsProgram : Prop :=
  ∀ (a d : Word) (s : State), s.SeqFirst →
    (inMain s.cfg a = false → exec (.st16 a d) s = .fault .outOfRange) ∧
    (inMain s.cfg a = true → bitOf a 0 = true → exec (.st16 a d) s = .fault .misaligned) ∧
    (inMain s.cfg a = true → bitOf a 0 = false → s.bsy = true →
      exec (.st16 a d) s = .fault .busyWrite) ∧
    (inMain s.cfg a = true → bitOf a 0 = false → s.bsy = false → (s.lock = true ∨ s.pg = false) →
      exec (.st16 a d) s = .next (s.ended a d 1 .done)) ∧
    (inMain s.cfg a = true → bitOf a 0 = false → s.bsy = false → s.lock = false → s.pg = true →
      exec (.st16 a d) s = .next { s.ended a d 1 .done with
        pend := .prog ((a.toNat - s.cfg.flashBase.toNat) / 2) (d.extractLsb' 0 16), bsy := true })

/-- R130: LDOB returns the raw cell, or a draw under a pending option operation; ids 6 and 7 fault. -/
def Obligations.LdobReturnsRawCell : Prop :=
  ∀ (a d : Word) (s : State), s.SeqFirst →
    ((cellOperand a).toNat > 5 → exec (.ldob a d) s = .fault .badCell) ∧
    (∀ c, cellOf (cellOperand a) = some c → ¬s.UnderOb c →
      let v := zextHalf (s.ob.cell c)
      exec (.ldob a d) s = .next { s.ended a d 1 (.value v) with res := v }) ∧
    (∀ c, cellOf (cellOperand a) = some c → s.UnderOb c →
      let v := zextHalf (Config.any16 s.draws)
      exec (.ldob a d) s =
        .next { s.ended a d 1 (.value v) with res := v, draws := s.draws + 1 })

/-- R131: STOB: cell id, busy, then dropped unless both locks are open and `OBPG` is 1. What the sequencer
registers hold after END is the model's choice (log 18). -/
def Obligations.StobStartsOptionProgram : Prop :=
  ∀ (a d : Word) (s : State), s.SeqFirst →
    ((cellOperand a).toNat > 5 → exec (.stob a d) s = .fault .badCell) ∧
    (∀ c, cellOf (cellOperand a) = some c → s.bsy = true →
      exec (.stob a d) s = .fault .busyWrite) ∧
    (∀ c, cellOf (cellOperand a) = some c → s.bsy = false →
      (s.lock = true ∨ s.obl = true ∨ s.obpg = false) →
      exec (.stob a d) s = .next (s.ended a d 1 .done)) ∧
    (∀ c, cellOf (cellOperand a) = some c → s.bsy = false →
      s.lock = false → s.obl = false → s.obpg = true →
      exec (.stob a d) s = .next { s.ended a d 1 .done with
        pend := .obProg c (d.extractLsb' 0 16), bsy := true })

/-! ## The engine (R132 to R136) and RESET (R241, R242) -/

/-- R132, R136: completion of a page erase. -/
def Obligations.EngineErasesPage : Prop :=
  ∀ (s : State) (p : Nat), s.Safe → s.pend = .erase p →
    (s.cfg.writeProtected p = true →
      agentStep .eng s = .next { s with
        wrprterr := true, pend := .none, bsy := false, strt := false }) ∧
    (s.cfg.writeProtected p = false →
      ∃ t, agentStep .eng s = .next t ∧
        t = { s with eop := true, pend := .none, bsy := false, strt := false, main := t.main } ∧
        (∀ i, 32 * p ≤ i → i ≤ 32 * p + 31 → t.mainCell i = 0xFFFF#16) ∧
        (∀ b, b < cellAddr s.cfg (32 * p) ∨ cellAddr s.cfg (32 * p) + 64 ≤ b →
          t.mainByte b = s.mainByte b))

/-- R133, R135, R136: completion of a program. In the main array a protected page sets `WRPRTERR` and
nothing else, an erased cell takes the value, any other cell a draw; an erased option cell takes the value
(its regenerated encoding under `OB_STORE_AUTOCOMPLEMENT`), any other a draw (log 5). -/
def Obligations.EngineProgramsCell : Prop :=
  (∀ (s : State) (i : Nat) (v : Half), s.Safe → s.pend = .prog i v →
    (s.cfg.writeProtected (i / 32) = true →
      agentStep .eng s = .next { s with
        wrprterr := true, pend := .none, bsy := false, strt := false }) ∧
    (s.cfg.writeProtected (i / 32) = false → s.mainCell i = 0xFFFF#16 →
      ∃ t, agentStep .eng s = .next t ∧
        t = { s with eop := true, pend := .none, bsy := false, strt := false, main := t.main } ∧
        t.mainCell i = v ∧
        (∀ b, b < cellAddr s.cfg i ∨ cellAddr s.cfg i + 2 ≤ b → t.mainByte b = s.mainByte b)) ∧
    (s.cfg.writeProtected (i / 32) = false → s.mainCell i ≠ 0xFFFF#16 →
      ∃ t, agentStep .eng s = .next t ∧
        t = { s with eop := true, pend := .none, bsy := false, strt := false,
                     draws := s.draws + 1, main := t.main } ∧
        t.mainCell i = Config.any16 s.draws ∧
        (∀ b, b < cellAddr s.cfg i ∨ cellAddr s.cfg i + 2 ≤ b → t.mainByte b = s.mainByte b))) ∧
  (∀ (s : State) (c : CellId) (v : Half), s.Safe → s.pend = .obProg c v →
    (s.ob.cell c = 0xFFFF#16 →
      agentStep .eng s = .next { s with
        eop := true, pend := .none, bsy := false, strt := false
        ob := s.ob.set c (if s.cfg.obStoreAutocomplement then encodeCell (v.extractLsb' 0 8) else v) }) ∧
    (s.ob.cell c ≠ 0xFFFF#16 →
      agentStep .eng s = .next { s with
        eop := true, pend := .none, bsy := false, strt := false, draws := s.draws + 1
        ob := s.ob.set c (Config.any16 s.draws) }))

/-- R134: completion of an option-block erase, whatever pages are write protected: every cell becomes
0xFFFF, so no field is valid and each decodes to 0. -/
def Obligations.EngineErasesOptionBlock : Prop :=
  ∀ s : State, s.Safe → s.pend = .obErase →
    ∃ t, agentStep .eng s = .next t ∧
      t = { s with eop := true, pend := .none, bsy := false, strt := false, ob := t.ob } ∧
      ∀ c, t.ob.cell c = 0xFFFF#16 ∧ validCell (t.ob.cell c) = false ∧ decodeCell (t.ob.cell c) = 0#8

/-- R241, R243: the RESET step gives the controller and the sequencer the values of R38, and delivers
no response; with nothing pending no cell changes. R138 (4): it is the step of HOST when its next action is
RESET, whatever SEQ and ENG are doing, and the step of the block when HOST is next to move (log 2). -/
def Obligations.ResetStepClosesAndKeeps : Prop :=
  (∀ s : State,
    let t := resetStep s
    (t.lock = true ∧ t.obl = true ∧ t.mkFsm = .idle ∧ t.okFsm = .idle ∧ t.pg = false ∧
      t.per = false ∧ t.obpg = false ∧ t.ober = false ∧ t.strt = false ∧ t.addr = 0#32 ∧
      t.bsy = false ∧ t.eop = false ∧ t.wrprterr = false ∧ t.pend = .none ∧ t.seqOp = none ∧
      t.spc = 0) ∧
    t.fault = s.fault ∧ t.cfg = s.cfg ∧ t.host = s.host ∧ t.response = s.response ∧
    t.turns = s.turns ∧ (s.pend = .none → t.main = s.main ∧ t.ob = s.ob)) ∧
  (∀ (s : State) (rest : List HostAction), s.Safe → s.host = .reset :: rest →
    agentStep .host s = .next (resetStep { s with host := rest }) ∧
    (s.turns = [] → step s = .next (resetStep { s with host := rest })) ∧
    (∀ ts, s.turns = .host :: ts → step s = .next (resetStep { s with host := rest, turns := ts })))

/-- R242: a RESET during an operation changes no cell but the operation's own, and those take
independent draws. -/
def Obligations.ResetSpoilsOnlyPendingCells : Prop :=
  ∀ s : State,
    let t := resetStep s
    (s.pend = .none → t.main = s.main ∧ t.ob = s.ob) ∧
    (∀ p, s.pend = .erase p → t.ob = s.ob ∧
      (∀ k, k < 32 → t.mainCell (32 * p + k) = Config.any16 (s.draws + k)) ∧
      (∀ b, b < cellAddr s.cfg (32 * p) ∨ cellAddr s.cfg (32 * p) + 64 ≤ b →
        t.mainByte b = s.mainByte b)) ∧
    (∀ i v, s.pend = .prog i v → t.ob = s.ob ∧ t.mainCell i = Config.any16 s.draws ∧
      (∀ b, b < cellAddr s.cfg i ∨ cellAddr s.cfg i + 2 ≤ b → t.mainByte b = s.mainByte b)) ∧
    (s.pend = .obErase → t.main = s.main ∧
      t.ob = ⟨Config.any16 s.draws, Config.any16 (s.draws + 1), Config.any16 (s.draws + 2),
        Config.any16 (s.draws + 3), Config.any16 (s.draws + 4), Config.any16 (s.draws + 5)⟩) ∧
    (∀ c v, s.pend = .obProg c v → t.main = s.main ∧
      t.ob = s.ob.set c (Config.any16 s.draws))

/-! ## AddressCalculator (41_address_calculator.md) -/

/-- R150, R152: CALC_ADDR returns `FLASH_BASE + NV_OFFSET + n` modulo 2^32, for every `n`. What the
sequencer registers hold after END is the model's choice (log 18). -/
def Obligations.CalcAddrAddsRegionStart : Prop :=
  ∀ (n d : Word) (s : State), s.SeqFirst →
    let v := BitVec.ofNat 32 (s.cfg.flashBase.toNat + s.cfg.nvOffset + n.toNat)
    exec (.calcAddr n d) s = .next { s.ended n d 1 (.value v) with res := v }

/-! ## LockController (42_lock_controller.md) -/

/-- R155: UNLOCK opens the main lock from `MK` = IDLE and does nothing from DEAD. From HALF its first key is
the awaited one when the two keys are equal, and a wrong one, taken by the policy, when they differ. -/
def Obligations.UnlockOpensMainLock : Prop :=
  ∀ (a d : Word) (s : State), s.Calm →
    (s.mkFsm = .idle → exec (.unlock a d) s = .next { s.ended a d 2 .done with lock := false }) ∧
    (s.mkFsm = .dead → exec (.unlock a d) s = .next (s.ended a d 2 .done)) ∧
    (s.mkFsm = .half → s.cfg.key1 ≠ s.cfg.key2 → s.cfg.keyFailPolicy = .restart →
      exec (.unlock a d) s = .next { s.ended a d 2 .done with mkFsm := .idle }) ∧
    (s.mkFsm = .half → s.cfg.key1 ≠ s.cfg.key2 → s.cfg.keyFailPolicy = .dead →
      exec (.unlock a d) s = .next { s.ended a d 2 .done with mkFsm := .dead }) ∧
    (s.mkFsm = .half → s.cfg.key1 = s.cfg.key2 →
      exec (.unlock a d) s = .next { s.ended a d 2 .done with lock := false, mkFsm := .half })

/-- R156: UNLOCK_OB opens the option lock from `OK` = IDLE; while it needs the main array Unlocked and
it is not, both writes are ignored; from DEAD and HALF it is as UNLOCK with `OK`. -/
def Obligations.UnlockObOpensOptionLock : Prop :=
  ∀ (a d : Word) (s : State), s.Calm →
    let ignored := s.cfg.obKeyNeedsMainUnlocked = true ∧ s.lock = true
    (ignored → exec (.unlockOb a d) s = .next (s.ended a d 2 .done)) ∧
    (¬ignored → s.okFsm = .idle →
      exec (.unlockOb a d) s = .next { s.ended a d 2 .done with obl := false }) ∧
    (¬ignored → s.okFsm = .dead → exec (.unlockOb a d) s = .next (s.ended a d 2 .done)) ∧
    (¬ignored → s.okFsm = .half → s.cfg.obKey1 ≠ s.cfg.obKey2 → s.cfg.keyFailPolicy = .restart →
      exec (.unlockOb a d) s = .next { s.ended a d 2 .done with okFsm := .idle }) ∧
    (¬ignored → s.okFsm = .half → s.cfg.obKey1 ≠ s.cfg.obKey2 → s.cfg.keyFailPolicy = .dead →
      exec (.unlockOb a d) s = .next { s.ended a d 2 .done with okFsm := .dead }) ∧
    (¬ignored → s.okFsm = .half → s.cfg.obKey1 = s.cfg.obKey2 →
      exec (.unlockOb a d) s = .next { s.ended a d 2 .done with obl := false, okFsm := .half })

/-- R157: LOCK: a fault while busy, no change while Locked, else `LOCK <- 1` with the mode bits kept. -/
def Obligations.LockClosesMainLock : Prop :=
  ∀ (a d : Word) (s : State), s.cfg.Ok → s.OneMode → s.SeqFirst →
    (s.bsy = true → exec (.lock a d) s = .fault .busyWrite) ∧
    (s.bsy = false → exec (.lock a d) s = .next { s.ended a d 1 .done with lock := true })

/-- R158, R221: the commands that open with the lock guard are silent no-ops while Locked, whatever
their operands: nothing changes but RT, and the response is like any other. -/
def Obligations.LockedCommandsAreNoOps : Prop :=
  ∀ (i : Instr) (s : State), guarded i.op = true → s.cfg.Ok → s.SeqFirst → s.lock = true →
    exec i s = .next { s.ended i.a i.d (progOf i.op).length .done with rt := ctlrWord s }

/-! ## StatusMonitor (43_status_monitor.md) -/

/-- R165, R166, R167: IS_BUSY, IS_DONE, IS_WPERR return their flag. What the sequencer registers hold after
END is the model's choice (log 18). -/
def Obligations.FlagReadsReturnFlag : Prop :=
  ∀ (a d : Word) (s : State), s.cfg.Ok → s.SeqFirst →
    let e (b : Bool) : State :=
      { s.ended a d 1 (.value (zextBit b)) with res := zextBit b, rt := statrWord s }
    exec (.isBusy a d) s = .next (e s.bsy) ∧
    exec (.isDone a d) s = .next (e s.eop) ∧
    exec (.isWperr a d) s = .next (e s.wrprterr)

/-- R168: CLEAR_DONE clears `EOP` and no other flag, busy or not. What the sequencer registers hold after
END is the model's choice (log 18). -/
def Obligations.ClearDoneClearsDoneFlag : Prop :=
  ∀ (a d : Word) (s : State), s.cfg.Ok → s.SeqFirst →
    exec (.clearDone a d) s = .next { s.ended a d 1 .done with eop := false }

/-- R169: WAIT_NOT_BUSY returns after one read when not busy, and after ENG's step, with every effect of
the operation visible, when one is pending. -/
def Obligations.WaitNotBusyEndsNotBusy : Prop :=
  ∀ (a d : Word) (s : State), s.cfg.Ok →
    (s.SeqFirst → s.bsy = false →
      exec (.waitNotBusy a d) s = .next { s.ended a d 1 .done with rt := statrWord s }) ∧
    (s.Calm → s.bsy = true → s.pend ≠ .none →
      exec (.waitNotBusy a d) s =
        .next { (engStep s).ended a d 1 .done with rt := statrWord (engStep s) })

/-- R170: WAIT_DONE: with nothing pending and `EOP` set it ends at once; with an operation pending it
ends after ENG's step if `EOP` is then set; either way it clears `EOP`. Otherwise it polls for ever:
the command is still running after the step, at its first micro-step (log 10). -/
def Obligations.WaitDoneConsumesDoneFlag : Prop :=
  ∀ (a d : Word) (s : State), s.cfg.Ok → s.Calm →
    (s.bsy = false → s.eop = true →
      exec (.waitDone a d) s = .next { s.ended a d 2 .done with eop := false, rt := statrWord s }) ∧
    (s.bsy = true → s.pend ≠ .none → (engStep s).eop = true →
      exec (.waitDone a d) s =
        .next { (engStep s).ended a d 2 .done with eop := false, rt := statrWord (engStep s) }) ∧
    (s.bsy = true → s.pend ≠ .none → (engStep s).eop = false →
      exec (.waitDone a d) s =
        .next { (engStep s).accept .waitDone a d with rt := statrWord (engStep s) }) ∧
    (s.bsy = false → s.pend = .none → s.eop = false →
      exec (.waitDone a d) s = .next { s.accept .waitDone a d with rt := statrWord s })

/-! ## EraseEngine (44_erase_engine.md) -/

/-- R175, R176: ERASE_PAGE, unlocked, idle, of a page that is not write protected. -/
def Obligations.ErasePageErasesOnePage : Prop :=
  ∀ (a d : Word) (s : State), s.UnlockedIdle → s.Calm → inMain s.cfg a = true →
    a.toNat % 64 = 0 → s.cfg.writeProtected (pageOf s.cfg a) = false →
    ∃ t, exec (.erasePage a d) s = .next t ∧
      t = { s.ended a d 7 .done with eop := true, addr := a, rt := t.rt, main := t.main } ∧
      (∀ b, a.toNat ≤ b → b < a.toNat + 64 → t.mainByte b = 0xFF#8) ∧
      (∀ b, b < a.toNat ∨ a.toNat + 64 ≤ b → t.mainByte b = s.mainByte b)

/-- R175 (d), R71, R67: ERASE_PAGE of a write-protected page changes no cell, sets `WRPRTERR`, leaves
`EOP`, and ends like any other; an address outside main flash, or off a page boundary, faults. -/
def Obligations.ErasePageOffTheHappyPath : Prop :=
  ∀ (a d : Word) (s : State), s.UnlockedIdle → s.Calm →
    (inMain s.cfg a = true → a.toNat % 64 = 0 → s.cfg.writeProtected (pageOf s.cfg a) = true →
      ∃ r, exec (.erasePage a d) s =
        .next { s.ended a d 7 .done with wrprterr := true, addr := a, rt := r }) ∧
    (inMain s.cfg a = false → exec (.erasePage a d) s = .fault .outOfRange) ∧
    (inMain s.cfg a = true → a.toNat % 64 ≠ 0 → exec (.erasePage a d) s = .fault .misaligned)

/-- R175, R180, R204: a mode bit that a primitive command left set makes the erase, program and option
write commands fault at their first mode write. -/
def Obligations.StrayModeBitFaults : Prop :=
  ∀ (a d : Word) (s : State), s.cfg.Ok → s.Calm → s.Rested → s.lock = false → s.OneMode →
    ((s.pg = true ∨ s.obpg = true ∨ s.ober = true) →
      exec (.erasePage a d) s = .fault .illegalCtlr) ∧
    ((s.per = true ∨ s.obpg = true ∨ s.ober = true) →
      ∀ mk ∈ [Instr.program16, Instr.program8x2, Instr.programFloat],
        exec (mk a d) s = .fault .illegalCtlr) ∧
    ((s.pg = true ∨ s.per = true ∨ s.obpg = true) →
      ∀ mk ∈ [Instr.writeOb16, Instr.writeOb8x2], exec (mk a d) s = .fault .illegalCtlr)

/-! ## ProgramEngine (45_program_engine.md) -/

/-- R180, R181: PROGRAM_16 and PROGRAM_8X2 program one erased cell: `d[7:0]` at the even address,
`d[15:8]` at the odd one. -/
def Obligations.ProgramWritesErasedCell : Prop :=
  ∀ (a d : Word) (s : State), s.UnlockedIdle → s.Calm → inMain s.cfg a = true →
    bitOf a 0 = false → s.cfg.writeProtected (pageOf s.cfg a) = false →
    s.mainByte a.toNat = 0xFF#8 → s.mainByte (a.toNat + 1) = 0xFF#8 →
    ∀ mk ∈ [Instr.program16, Instr.program8x2],
      ∃ t, exec (mk a d) s = .next t ∧
        t = { s.ended a d 6 .done with eop := true, rt := t.rt, main := t.main } ∧
        t.mainByte a.toNat = d.extractLsb' 0 8 ∧ t.mainByte (a.toNat + 1) = d.extractLsb' 8 8 ∧
        (∀ b, b < a.toNat ∨ a.toNat + 2 ≤ b → t.mainByte b = s.mainByte b)

/-- R180 (b), (d): a cell that is not erased ends holding a draw, with `EOP` and no error flag; a
write-protected page keeps its cells and sets `WRPRTERR`, `EOP` unchanged. -/
def Obligations.ProgramOffTheHappyPath : Prop :=
  ∀ (a d : Word) (s : State), s.UnlockedIdle → s.Calm → inMain s.cfg a = true →
    bitOf a 0 = false →
    ∀ mk ∈ [Instr.program16, Instr.program8x2],
      (s.cfg.writeProtected (pageOf s.cfg a) = true →
        ∃ r, exec (mk a d) s = .next { s.ended a d 6 .done with wrprterr := true, rt := r }) ∧
      (s.cfg.writeProtected (pageOf s.cfg a) = false →
        s.mainByte (a.toNat + 1) ++ s.mainByte a.toNat ≠ 0xFFFF#16 →
        ∃ t, exec (mk a d) s = .next t ∧
          t = { s.ended a d 6 .done with
            eop := true, rt := t.rt, main := t.main, draws := s.draws + 1 } ∧
          t.mainByte (a.toNat + 1) ++ t.mainByte a.toNat = Config.any16 s.draws ∧
          (∀ b, b < a.toNat ∨ a.toNat + 2 ≤ b → t.mainByte b = s.mainByte b))

/-- R180, R182: the program commands fault outside main flash and at an odd address; PROGRAM_FLOAT at
the last cell faults on its second half. -/
def Obligations.ProgramFaultsOnBadAddress : Prop :=
  ∀ (a d : Word) (s : State), s.UnlockedIdle → s.Calm →
    (∀ mk ∈ [Instr.program16, Instr.program8x2, Instr.programFloat],
      (inMain s.cfg a = false → exec (mk a d) s = .fault .outOfRange) ∧
      (inMain s.cfg a = true → bitOf a 0 = true → exec (mk a d) s = .fault .misaligned)) ∧
    (inMain s.cfg a = true → bitOf a 0 = false → inMain s.cfg (a + 2#32) = false →
      exec (.programFloat a d) s = .fault .outOfRange)

/-- R182, R97: PROGRAM_FLOAT programs `f[15:0]` at `a` and `f[31:16]` at `a + 2`, both cells erased and
neither page protected: byte by byte, little-endian. -/
def Obligations.ProgramFloatWritesBothHalves : Prop :=
  ∀ (a f : Word) (s : State), s.UnlockedIdle → s.Calm → inMain s.cfg a = true →
    inMain s.cfg (a + 2#32) = true → bitOf a 0 = false →
    s.cfg.writeProtected (pageOf s.cfg a) = false →
    s.cfg.writeProtected (pageOf s.cfg (a + 2#32)) = false →
    s.mainByte a.toNat = 0xFF#8 → s.mainByte (a.toNat + 1) = 0xFF#8 →
    s.mainByte (a + 2#32).toNat = 0xFF#8 → s.mainByte ((a + 2#32).toNat + 1) = 0xFF#8 →
    ∃ t, exec (.programFloat a f) s = .next t ∧
      t = { s.ended (a + 2#32) (f >>> 16) 13 .done with eop := true, rt := t.rt, main := t.main } ∧
      t.mainByte a.toNat = f.extractLsb' 0 8 ∧ t.mainByte (a.toNat + 1) = f.extractLsb' 8 8 ∧
      t.mainByte (a + 2#32).toNat = f.extractLsb' 16 8 ∧
      t.mainByte ((a + 2#32).toNat + 1) = f.extractLsb' 24 8 ∧
      (∀ b, b < a.toNat ∨ a.toNat + 2 ≤ b →
        b < (a + 2#32).toNat ∨ (a + 2#32).toNat + 2 ≤ b → t.mainByte b = s.mainByte b)

/-! ## ReadAccessor (46_read_accessor.md) -/

/-- R192, R193: READ_FLOAT returns the four bytes at `a`, little-endian, a half whose cell is under the
pending operation being a draw (R76, log 5); it faults where either load does. -/
def Obligations.ReadFloatAssemblesBothHalves : Prop :=
  ∀ (a d : Word) (s : State), s.cfg.Ok → s.Calm →
    (inMain s.cfg a = false → exec (.readFloat a d) s = .fault .outOfRange) ∧
    (inMain s.cfg a = true → bitOf a 0 = true → exec (.readFloat a d) s = .fault .misaligned) ∧
    (inMain s.cfg a = true → bitOf a 0 = false → inMain s.cfg (a + 2#32) = false →
      exec (.readFloat a d) s = .fault .outOfRange) ∧
    (inMain s.cfg a = true → bitOf a 0 = false → inMain s.cfg (a + 2#32) = true →
      let drawn₀ := affected s.pend (mainCellOf s.cfg a)
      let drawn₁ := affected s.pend (mainCellOf s.cfg (a + 2#32))
      let lo := if drawn₀ then Config.any16 s.draws
        else s.mainByte (a.toNat + 1) ++ s.mainByte a.toNat
      let hi := if drawn₁ then Config.any16 (s.draws + drawn₀.toNat)
        else s.mainByte ((a + 2#32).toNat + 1) ++ s.mainByte (a + 2#32).toNat
      let v : Word := hi ++ lo
      exec (.readFloat a d) s = .next { s.ended a d 2 (.value v) with
        res := v, rt := zextHalf lo, draws := s.draws + drawn₀.toNat + drawn₁.toNat })

/-- R97, R182, R192: the float round trip: PROGRAM_FLOAT on erased cells, then READ_FLOAT, returns the
same 32 bits, for every pattern. -/
def Obligations.FloatRoundTrip : Prop :=
  ∀ (a f d : Word) (s : State), s.UnlockedIdle → s.Calm → inMain s.cfg a = true →
    inMain s.cfg (a + 2#32) = true → bitOf a 0 = false →
    s.cfg.writeProtected (pageOf s.cfg a) = false →
    s.cfg.writeProtected (pageOf s.cfg (a + 2#32)) = false →
    s.mainByte a.toNat = 0xFF#8 → s.mainByte (a.toNat + 1) = 0xFF#8 →
    s.mainByte (a + 2#32).toNat = 0xFF#8 → s.mainByte ((a + 2#32).toNat + 1) = 0xFF#8 →
    ∃ t u, exec (.programFloat a f) s = .next t ∧ exec (.readFloat a d) t = .next u ∧
      u.response = some (.value f)

/-! ## OptionByteCodec (47_option_byte_codec.md) -/

/-- R195, R196: DECODE_CELL returns the low byte where the high byte is its inverse, and 0 elsewhere;
ENCODE_CELL returns the byte under its inverse. What the sequencer registers hold after END is the model's
choice (log 18). -/
def Obligations.CellCommandsFollowCode : Prop :=
  ∀ (a d : Word) (s : State), s.SeqFirst →
    let b : Byte := d.extractLsb' 0 8
    let check : Byte := ~~~(d.extractLsb' 8 8)
    let dec : Word := if check = b then b.setWidth 32 else 0#32
    let enc : Word := (~~~b ++ b).setWidth 32
    exec (.decodeCell a d) s = .next { s.ended a d 1 (.value dec) with res := dec } ∧
    exec (.encodeCell a d) s = .next { s.ended a d 1 (.value enc) with res := enc }

/-- R99: the two functions, and their laws, which R99 marks as its own inference ("Laws [derived]"):
decoding an encoded byte gives it back, every other word decodes to 0, encoding is injective, and the
encoded bytes are exactly the valid cells. -/
def Obligations.CellCodeLaws : Prop :=
  (∀ b : Byte, encodeCell b = ~~~b ++ b) ∧
  (∀ w : Half, decodeCell w =
    if ~~~(w.extractLsb' 8 8) = w.extractLsb' 0 8 then w.extractLsb' 0 8 else 0#8) ∧
  (∀ b : Byte, decodeCell (encodeCell b) = b) ∧
  (∀ b c : Byte, encodeCell b = encodeCell c → b = c) ∧
  (∀ w : Half, (∀ b, w ≠ encodeCell b) → decodeCell w = 0#8) ∧
  (∀ w : Half, validCell w = true ↔ ∃ b, w = encodeCell b)

/-- R35: a valid cell has the inverse of its low byte as its high byte; the valid cells are the encoded
bytes, one for each byte; the erased value is not one. The hardware does not keep cells valid (ENG stores
what it is given, unless `OB_STORE_AUTOCOMPLEMENT` asks otherwise): the codec makes a cell valid when it
encodes, and reads a cell that is not valid as 0. -/
def Obligations.ValidCellsAreEncodedBytes : Prop :=
  (∀ w : Half, validCell w = true ↔ w.extractLsb' 8 8 = ~~~(w.extractLsb' 0 8)) ∧
  (∀ w : Half, validCell w = true ↔ ∃ b, w = encodeCell b ∧ ∀ c, w = encodeCell c → c = b) ∧
  validCell 0xFFFF#16 = false ∧
  (∀ w : Half, validCell w = false → decodeCell w = 0#8) ∧
  (∀ (s : State) (c : CellId) (w : Half), s.Safe → s.pend = .obProg c w →
    s.cfg.obStoreAutocomplement = false → s.ob.cell c = 0xFFFF#16 →
    ∃ t, agentStep .eng s = .next t ∧ t.ob.cell c = w)

/-- R197 to R202: each field read returns the decoded cell, or the decoding of a draw while the cell is
under a pending operation. -/
def Obligations.FieldReadsReturnDecodedCell : Prop :=
  ∀ (a d : Word) (s : State), s.SeqFirst →
    ∀ r ∈ [(Instr.readUser, CellId.user), (Instr.readRdpr, CellId.rdpr),
        (Instr.readWrpr1, CellId.wrpr1), (Instr.readWrpr0, CellId.wrpr0),
        (Instr.readData1, CellId.data1), (Instr.readData0, CellId.data0)],
      (¬s.UnderOb r.2 →
        let v := zextByte (decodeCell (s.ob.cell r.2))
        exec (r.1 a d) s = .next { s.ended a d 1 (.value v) with res := v }) ∧
      (s.UnderOb r.2 →
        let v := zextByte (decodeCell (Config.any16 s.draws))
        exec (r.1 a d) s =
          .next { s.ended a d 1 (.value v) with res := v, draws := s.draws + 1 })

/-- R203, R98: READ_DATA16 returns the two decoded data fields, each failing on its own, a cell under the
pending operation being a draw (R130, log 5). -/
def Obligations.ReadData16JoinsBothFields : Prop :=
  ∀ (a d : Word) (s : State), s.Calm →
    let drawn₁ := obAffected s.pend .data1
    let drawn₀ := obAffected s.pend .data0
    let hi := decodeCell (if drawn₁ then Config.any16 s.draws else s.ob.data1)
    let lo := decodeCell (if drawn₀ then Config.any16 (s.draws + drawn₁.toNat) else s.ob.data0)
    let v := (hi ++ lo).setWidth 32
    exec (.readData16 a d) s = .next { s.ended a d 2 (.value v) with
      res := v, rt := zextByte hi, draws := s.draws + drawn₁.toNat + drawn₀.toNat }

/-- R204, R205: WRITE_OB_16 and WRITE_OB_8X2. With both locks open the four other cells are restored as
stored, DATA1 and DATA0 take the encoded bytes of `d[15:0]`, and main flash is untouched. With the option
lock closed (corner case (b)) all the micro-steps run, the erase start and the six stores are dropped, and
no cell and no flag changes. -/
def Obligations.WriteObRewritesBlock : Prop :=
  ∀ (a d : Word) (s : State), s.UnlockedIdle → s.Calm →
    ∀ mk ∈ [Instr.writeOb16, Instr.writeOb8x2],
      let st (x : Half) : Half :=
        if s.cfg.obStoreAutocomplement then encodeCell (x.extractLsb' 0 8) else x
      let e (r : Word) : State := { s.ended a d 25 .done with
        rt := r
        rs0 := s.ob.user, rs1 := s.ob.rdpr, rs2 := s.ob.wrpr1, rs3 := s.ob.wrpr0
        rb1 := d.extractLsb' 8 8, rb0 := d.extractLsb' 0 8 }
      (s.obl = false → ∃ r, exec (mk a d) s = .next { e r with
        eop := true
        ob := { user := st s.ob.user, rdpr := st s.ob.rdpr
                wrpr1 := st s.ob.wrpr1, wrpr0 := st s.ob.wrpr0
                data1 := encodeCell (d.extractLsb' 8 8), data0 := encodeCell (d.extractLsb' 0 8) } }) ∧
      (s.obl = true → ∃ r, exec (mk a d) s = .next (e r))

/-- R208: the preservation property, for WRITE_OB_16 and WRITE_OB_8X2: from four valid cells, an option write
leaves their decoded values as they were, and READ_DATA16 then returns the value written. -/
def Obligations.WriteObPreservesOtherFields : Prop :=
  ∀ (a d a' d' : Word) (s : State), s.UnlockedIdle → s.Calm → s.obl = false →
    validCell s.ob.user = true → validCell s.ob.rdpr = true → validCell s.ob.wrpr1 = true →
    validCell s.ob.wrpr0 = true →
    ∀ mk ∈ [Instr.writeOb16, Instr.writeOb8x2],
      ∃ t u, exec (mk a d) s = .next t ∧ exec (.readData16 a' d') t = .next u ∧
        (∀ c ∈ [CellId.user, CellId.rdpr, CellId.wrpr1, CellId.wrpr0],
          decodeCell (t.ob.cell c) = decodeCell (s.ob.cell c)) ∧
        u.response = some (.value ((d.extractLsb' 0 16).setWidth 32))
end

