-- ==== Sys2Proof/Laws/State.lean ====
section
/-! SUPPORT. What each named update of the state does to each field: one lemma per field per update,
true by `rfl`, so that no proof unfolds an update. -/

namespace Sys2Proof.Machine

/-! ### accept -/

@[simp] theorem accept_cfg (s : State) (op : Op) (a d : Word) : (s.accept op a d).cfg = s.cfg := rfl
@[simp] theorem accept_lock (s : State) (op : Op) (a d : Word) : (s.accept op a d).lock = s.lock := rfl
@[simp] theorem accept_obl (s : State) (op : Op) (a d : Word) : (s.accept op a d).obl = s.obl := rfl
@[simp] theorem accept_mkFsm (s : State) (op : Op) (a d : Word) : (s.accept op a d).mkFsm = s.mkFsm := rfl
@[simp] theorem accept_okFsm (s : State) (op : Op) (a d : Word) : (s.accept op a d).okFsm = s.okFsm := rfl
@[simp] theorem accept_pg (s : State) (op : Op) (a d : Word) : (s.accept op a d).pg = s.pg := rfl
@[simp] theorem accept_per (s : State) (op : Op) (a d : Word) : (s.accept op a d).per = s.per := rfl
@[simp] theorem accept_obpg (s : State) (op : Op) (a d : Word) : (s.accept op a d).obpg = s.obpg := rfl
@[simp] theorem accept_ober (s : State) (op : Op) (a d : Word) : (s.accept op a d).ober = s.ober := rfl
@[simp] theorem accept_strt (s : State) (op : Op) (a d : Word) : (s.accept op a d).strt = s.strt := rfl
@[simp] theorem accept_addr (s : State) (op : Op) (a d : Word) : (s.accept op a d).addr = s.addr := rfl
@[simp] theorem accept_bsy (s : State) (op : Op) (a d : Word) : (s.accept op a d).bsy = s.bsy := rfl
@[simp] theorem accept_eop (s : State) (op : Op) (a d : Word) : (s.accept op a d).eop = s.eop := rfl
@[simp] theorem accept_wrprterr (s : State) (op : Op) (a d : Word) : (s.accept op a d).wrprterr = s.wrprterr := rfl
@[simp] theorem accept_pend (s : State) (op : Op) (a d : Word) : (s.accept op a d).pend = s.pend := rfl
@[simp] theorem accept_main (s : State) (op : Op) (a d : Word) : (s.accept op a d).main = s.main := rfl
@[simp] theorem accept_ob (s : State) (op : Op) (a d : Word) : (s.accept op a d).ob = s.ob := rfl
@[simp] theorem accept_seqOp (s : State) (op : Op) (a d : Word) : (s.accept op a d).seqOp = some op := rfl
@[simp] theorem accept_spc (s : State) (op : Op) (a d : Word) : (s.accept op a d).spc = 0 := rfl
@[simp] theorem accept_ra (s : State) (op : Op) (a d : Word) : (s.accept op a d).ra = a := rfl
@[simp] theorem accept_rd (s : State) (op : Op) (a d : Word) : (s.accept op a d).rd = d := rfl
@[simp] theorem accept_rt (s : State) (op : Op) (a d : Word) : (s.accept op a d).rt = s.rt := rfl
@[simp] theorem accept_res (s : State) (op : Op) (a d : Word) : (s.accept op a d).res = s.res := rfl
@[simp] theorem accept_rs0 (s : State) (op : Op) (a d : Word) : (s.accept op a d).rs0 = s.rs0 := rfl
@[simp] theorem accept_rs1 (s : State) (op : Op) (a d : Word) : (s.accept op a d).rs1 = s.rs1 := rfl
@[simp] theorem accept_rs2 (s : State) (op : Op) (a d : Word) : (s.accept op a d).rs2 = s.rs2 := rfl
@[simp] theorem accept_rs3 (s : State) (op : Op) (a d : Word) : (s.accept op a d).rs3 = s.rs3 := rfl
@[simp] theorem accept_rb1 (s : State) (op : Op) (a d : Word) : (s.accept op a d).rb1 = s.rb1 := rfl
@[simp] theorem accept_rb0 (s : State) (op : Op) (a d : Word) : (s.accept op a d).rb0 = s.rb0 := rfl
@[simp] theorem accept_fault (s : State) (op : Op) (a d : Word) : (s.accept op a d).fault = s.fault := rfl
@[simp] theorem accept_host (s : State) (op : Op) (a d : Word) : (s.accept op a d).host = s.host := rfl
@[simp] theorem accept_response (s : State) (op : Op) (a d : Word) : (s.accept op a d).response = none := rfl
@[simp] theorem accept_turns (s : State) (op : Op) (a d : Word) : (s.accept op a d).turns = s.turns := rfl
@[simp] theorem accept_draws (s : State) (op : Op) (a d : Word) : (s.accept op a d).draws = s.draws := rfl

/-! ### finish -/

@[simp] theorem finish_cfg (s : State) (op : Op) : (s.finish op).cfg = s.cfg := rfl
@[simp] theorem finish_lock (s : State) (op : Op) : (s.finish op).lock = s.lock := rfl
@[simp] theorem finish_obl (s : State) (op : Op) : (s.finish op).obl = s.obl := rfl
@[simp] theorem finish_mkFsm (s : State) (op : Op) : (s.finish op).mkFsm = s.mkFsm := rfl
@[simp] theorem finish_okFsm (s : State) (op : Op) : (s.finish op).okFsm = s.okFsm := rfl
@[simp] theorem finish_pg (s : State) (op : Op) : (s.finish op).pg = s.pg := rfl
@[simp] theorem finish_per (s : State) (op : Op) : (s.finish op).per = s.per := rfl
@[simp] theorem finish_obpg (s : State) (op : Op) : (s.finish op).obpg = s.obpg := rfl
@[simp] theorem finish_ober (s : State) (op : Op) : (s.finish op).ober = s.ober := rfl
@[simp] theorem finish_strt (s : State) (op : Op) : (s.finish op).strt = s.strt := rfl
@[simp] theorem finish_addr (s : State) (op : Op) : (s.finish op).addr = s.addr := rfl
@[simp] theorem finish_bsy (s : State) (op : Op) : (s.finish op).bsy = s.bsy := rfl
@[simp] theorem finish_eop (s : State) (op : Op) : (s.finish op).eop = s.eop := rfl
@[simp] theorem finish_wrprterr (s : State) (op : Op) : (s.finish op).wrprterr = s.wrprterr := rfl
@[simp] theorem finish_pend (s : State) (op : Op) : (s.finish op).pend = s.pend := rfl
@[simp] theorem finish_main (s : State) (op : Op) : (s.finish op).main = s.main := rfl
@[simp] theorem finish_ob (s : State) (op : Op) : (s.finish op).ob = s.ob := rfl
@[simp] theorem finish_seqOp (s : State) (op : Op) : (s.finish op).seqOp = none := rfl
@[simp] theorem finish_spc (s : State) (op : Op) : (s.finish op).spc = s.spc := rfl
@[simp] theorem finish_ra (s : State) (op : Op) : (s.finish op).ra = s.ra := rfl
@[simp] theorem finish_rd (s : State) (op : Op) : (s.finish op).rd = s.rd := rfl
@[simp] theorem finish_rt (s : State) (op : Op) : (s.finish op).rt = s.rt := rfl
@[simp] theorem finish_res (s : State) (op : Op) : (s.finish op).res = s.res := rfl
@[simp] theorem finish_rs0 (s : State) (op : Op) : (s.finish op).rs0 = s.rs0 := rfl
@[simp] theorem finish_rs1 (s : State) (op : Op) : (s.finish op).rs1 = s.rs1 := rfl
@[simp] theorem finish_rs2 (s : State) (op : Op) : (s.finish op).rs2 = s.rs2 := rfl
@[simp] theorem finish_rs3 (s : State) (op : Op) : (s.finish op).rs3 = s.rs3 := rfl
@[simp] theorem finish_rb1 (s : State) (op : Op) : (s.finish op).rb1 = s.rb1 := rfl
@[simp] theorem finish_rb0 (s : State) (op : Op) : (s.finish op).rb0 = s.rb0 := rfl
@[simp] theorem finish_fault (s : State) (op : Op) : (s.finish op).fault = s.fault := rfl
@[simp] theorem finish_host (s : State) (op : Op) : (s.finish op).host = s.host := rfl
@[simp] theorem finish_response (s : State) (op : Op) : (s.finish op).response = some (responseOf op s.res) := rfl
@[simp] theorem finish_turns (s : State) (op : Op) : (s.finish op).turns = s.turns := rfl
@[simp] theorem finish_draws (s : State) (op : Op) : (s.finish op).draws = s.draws := rfl

/-! ### drawn -/

@[simp] theorem drawn_cfg (s : State) (n : Nat) : (s.drawn n).cfg = s.cfg := rfl
@[simp] theorem drawn_lock (s : State) (n : Nat) : (s.drawn n).lock = s.lock := rfl
@[simp] theorem drawn_obl (s : State) (n : Nat) : (s.drawn n).obl = s.obl := rfl
@[simp] theorem drawn_mkFsm (s : State) (n : Nat) : (s.drawn n).mkFsm = s.mkFsm := rfl
@[simp] theorem drawn_okFsm (s : State) (n : Nat) : (s.drawn n).okFsm = s.okFsm := rfl
@[simp] theorem drawn_pg (s : State) (n : Nat) : (s.drawn n).pg = s.pg := rfl
@[simp] theorem drawn_per (s : State) (n : Nat) : (s.drawn n).per = s.per := rfl
@[simp] theorem drawn_obpg (s : State) (n : Nat) : (s.drawn n).obpg = s.obpg := rfl
@[simp] theorem drawn_ober (s : State) (n : Nat) : (s.drawn n).ober = s.ober := rfl
@[simp] theorem drawn_strt (s : State) (n : Nat) : (s.drawn n).strt = s.strt := rfl
@[simp] theorem drawn_addr (s : State) (n : Nat) : (s.drawn n).addr = s.addr := rfl
@[simp] theorem drawn_bsy (s : State) (n : Nat) : (s.drawn n).bsy = s.bsy := rfl
@[simp] theorem drawn_eop (s : State) (n : Nat) : (s.drawn n).eop = s.eop := rfl
@[simp] theorem drawn_wrprterr (s : State) (n : Nat) : (s.drawn n).wrprterr = s.wrprterr := rfl
@[simp] theorem drawn_pend (s : State) (n : Nat) : (s.drawn n).pend = s.pend := rfl
@[simp] theorem drawn_main (s : State) (n : Nat) : (s.drawn n).main = s.main := rfl
@[simp] theorem drawn_ob (s : State) (n : Nat) : (s.drawn n).ob = s.ob := rfl
@[simp] theorem drawn_seqOp (s : State) (n : Nat) : (s.drawn n).seqOp = s.seqOp := rfl
@[simp] theorem drawn_spc (s : State) (n : Nat) : (s.drawn n).spc = s.spc := rfl
@[simp] theorem drawn_ra (s : State) (n : Nat) : (s.drawn n).ra = s.ra := rfl
@[simp] theorem drawn_rd (s : State) (n : Nat) : (s.drawn n).rd = s.rd := rfl
@[simp] theorem drawn_rt (s : State) (n : Nat) : (s.drawn n).rt = s.rt := rfl
@[simp] theorem drawn_res (s : State) (n : Nat) : (s.drawn n).res = s.res := rfl
@[simp] theorem drawn_rs0 (s : State) (n : Nat) : (s.drawn n).rs0 = s.rs0 := rfl
@[simp] theorem drawn_rs1 (s : State) (n : Nat) : (s.drawn n).rs1 = s.rs1 := rfl
@[simp] theorem drawn_rs2 (s : State) (n : Nat) : (s.drawn n).rs2 = s.rs2 := rfl
@[simp] theorem drawn_rs3 (s : State) (n : Nat) : (s.drawn n).rs3 = s.rs3 := rfl
@[simp] theorem drawn_rb1 (s : State) (n : Nat) : (s.drawn n).rb1 = s.rb1 := rfl
@[simp] theorem drawn_rb0 (s : State) (n : Nat) : (s.drawn n).rb0 = s.rb0 := rfl
@[simp] theorem drawn_fault (s : State) (n : Nat) : (s.drawn n).fault = s.fault := rfl
@[simp] theorem drawn_host (s : State) (n : Nat) : (s.drawn n).host = s.host := rfl
@[simp] theorem drawn_response (s : State) (n : Nat) : (s.drawn n).response = s.response := rfl
@[simp] theorem drawn_turns (s : State) (n : Nat) : (s.drawn n).turns = s.turns := rfl
@[simp] theorem drawn_draws (s : State) (n : Nat) : (s.drawn n).draws = s.draws + n := rfl

/-! ### setMainCell -/

@[simp] theorem setMainCell_cfg (s : State) (i : Nat) (w : Half) : (s.setMainCell i w).cfg = s.cfg := rfl
@[simp] theorem setMainCell_lock (s : State) (i : Nat) (w : Half) : (s.setMainCell i w).lock = s.lock := rfl
@[simp] theorem setMainCell_obl (s : State) (i : Nat) (w : Half) : (s.setMainCell i w).obl = s.obl := rfl
@[simp] theorem setMainCell_mkFsm (s : State) (i : Nat) (w : Half) : (s.setMainCell i w).mkFsm = s.mkFsm := rfl
@[simp] theorem setMainCell_okFsm (s : State) (i : Nat) (w : Half) : (s.setMainCell i w).okFsm = s.okFsm := rfl
@[simp] theorem setMainCell_pg (s : State) (i : Nat) (w : Half) : (s.setMainCell i w).pg = s.pg := rfl
@[simp] theorem setMainCell_per (s : State) (i : Nat) (w : Half) : (s.setMainCell i w).per = s.per := rfl
@[simp] theorem setMainCell_obpg (s : State) (i : Nat) (w : Half) : (s.setMainCell i w).obpg = s.obpg := rfl
@[simp] theorem setMainCell_ober (s : State) (i : Nat) (w : Half) : (s.setMainCell i w).ober = s.ober := rfl
@[simp] theorem setMainCell_strt (s : State) (i : Nat) (w : Half) : (s.setMainCell i w).strt = s.strt := rfl
@[simp] theorem setMainCell_addr (s : State) (i : Nat) (w : Half) : (s.setMainCell i w).addr = s.addr := rfl
@[simp] theorem setMainCell_bsy (s : State) (i : Nat) (w : Half) : (s.setMainCell i w).bsy = s.bsy := rfl
@[simp] theorem setMainCell_eop (s : State) (i : Nat) (w : Half) : (s.setMainCell i w).eop = s.eop := rfl
@[simp] theorem setMainCell_wrprterr (s : State) (i : Nat) (w : Half) : (s.setMainCell i w).wrprterr = s.wrprterr := rfl
@[simp] theorem setMainCell_pend (s : State) (i : Nat) (w : Half) : (s.setMainCell i w).pend = s.pend := rfl
@[simp] theorem setMainCell_main (s : State) (i : Nat) (w : Half) : (s.setMainCell i w).main = s.main.writeHalf (cellAddr s.cfg i) w := rfl
@[simp] theorem setMainCell_ob (s : State) (i : Nat) (w : Half) : (s.setMainCell i w).ob = s.ob := rfl
@[simp] theorem setMainCell_seqOp (s : State) (i : Nat) (w : Half) : (s.setMainCell i w).seqOp = s.seqOp := rfl
@[simp] theorem setMainCell_spc (s : State) (i : Nat) (w : Half) : (s.setMainCell i w).spc = s.spc := rfl
@[simp] theorem setMainCell_ra (s : State) (i : Nat) (w : Half) : (s.setMainCell i w).ra = s.ra := rfl
@[simp] theorem setMainCell_rd (s : State) (i : Nat) (w : Half) : (s.setMainCell i w).rd = s.rd := rfl
@[simp] theorem setMainCell_rt (s : State) (i : Nat) (w : Half) : (s.setMainCell i w).rt = s.rt := rfl
@[simp] theorem setMainCell_res (s : State) (i : Nat) (w : Half) : (s.setMainCell i w).res = s.res := rfl
@[simp] theorem setMainCell_rs0 (s : State) (i : Nat) (w : Half) : (s.setMainCell i w).rs0 = s.rs0 := rfl
@[simp] theorem setMainCell_rs1 (s : State) (i : Nat) (w : Half) : (s.setMainCell i w).rs1 = s.rs1 := rfl
@[simp] theorem setMainCell_rs2 (s : State) (i : Nat) (w : Half) : (s.setMainCell i w).rs2 = s.rs2 := rfl
@[simp] theorem setMainCell_rs3 (s : State) (i : Nat) (w : Half) : (s.setMainCell i w).rs3 = s.rs3 := rfl
@[simp] theorem setMainCell_rb1 (s : State) (i : Nat) (w : Half) : (s.setMainCell i w).rb1 = s.rb1 := rfl
@[simp] theorem setMainCell_rb0 (s : State) (i : Nat) (w : Half) : (s.setMainCell i w).rb0 = s.rb0 := rfl
@[simp] theorem setMainCell_fault (s : State) (i : Nat) (w : Half) : (s.setMainCell i w).fault = s.fault := rfl
@[simp] theorem setMainCell_host (s : State) (i : Nat) (w : Half) : (s.setMainCell i w).host = s.host := rfl
@[simp] theorem setMainCell_response (s : State) (i : Nat) (w : Half) : (s.setMainCell i w).response = s.response := rfl
@[simp] theorem setMainCell_turns (s : State) (i : Nat) (w : Half) : (s.setMainCell i w).turns = s.turns := rfl
@[simp] theorem setMainCell_draws (s : State) (i : Nat) (w : Half) : (s.setMainCell i w).draws = s.draws := rfl

/-! ### setMainCells -/

@[simp] theorem setMainCells_cfg (s : State) (i : Nat) (ws : List Half) : (s.setMainCells i ws).cfg = s.cfg := rfl
@[simp] theorem setMainCells_lock (s : State) (i : Nat) (ws : List Half) : (s.setMainCells i ws).lock = s.lock := rfl
@[simp] theorem setMainCells_obl (s : State) (i : Nat) (ws : List Half) : (s.setMainCells i ws).obl = s.obl := rfl
@[simp] theorem setMainCells_mkFsm (s : State) (i : Nat) (ws : List Half) : (s.setMainCells i ws).mkFsm = s.mkFsm := rfl
@[simp] theorem setMainCells_okFsm (s : State) (i : Nat) (ws : List Half) : (s.setMainCells i ws).okFsm = s.okFsm := rfl
@[simp] theorem setMainCells_pg (s : State) (i : Nat) (ws : List Half) : (s.setMainCells i ws).pg = s.pg := rfl
@[simp] theorem setMainCells_per (s : State) (i : Nat) (ws : List Half) : (s.setMainCells i ws).per = s.per := rfl
@[simp] theorem setMainCells_obpg (s : State) (i : Nat) (ws : List Half) : (s.setMainCells i ws).obpg = s.obpg := rfl
@[simp] theorem setMainCells_ober (s : State) (i : Nat) (ws : List Half) : (s.setMainCells i ws).ober = s.ober := rfl
@[simp] theorem setMainCells_strt (s : State) (i : Nat) (ws : List Half) : (s.setMainCells i ws).strt = s.strt := rfl
@[simp] theorem setMainCells_addr (s : State) (i : Nat) (ws : List Half) : (s.setMainCells i ws).addr = s.addr := rfl
@[simp] theorem setMainCells_bsy (s : State) (i : Nat) (ws : List Half) : (s.setMainCells i ws).bsy = s.bsy := rfl
@[simp] theorem setMainCells_eop (s : State) (i : Nat) (ws : List Half) : (s.setMainCells i ws).eop = s.eop := rfl
@[simp] theorem setMainCells_wrprterr (s : State) (i : Nat) (ws : List Half) : (s.setMainCells i ws).wrprterr = s.wrprterr := rfl
@[simp] theorem setMainCells_pend (s : State) (i : Nat) (ws : List Half) : (s.setMainCells i ws).pend = s.pend := rfl
@[simp] theorem setMainCells_main (s : State) (i : Nat) (ws : List Half) : (s.setMainCells i ws).main = s.main.writeHalves (cellAddr s.cfg i) ws := rfl
@[simp] theorem setMainCells_ob (s : State) (i : Nat) (ws : List Half) : (s.setMainCells i ws).ob = s.ob := rfl
@[simp] theorem setMainCells_seqOp (s : State) (i : Nat) (ws : List Half) : (s.setMainCells i ws).seqOp = s.seqOp := rfl
@[simp] theorem setMainCells_spc (s : State) (i : Nat) (ws : List Half) : (s.setMainCells i ws).spc = s.spc := rfl
@[simp] theorem setMainCells_ra (s : State) (i : Nat) (ws : List Half) : (s.setMainCells i ws).ra = s.ra := rfl
@[simp] theorem setMainCells_rd (s : State) (i : Nat) (ws : List Half) : (s.setMainCells i ws).rd = s.rd := rfl
@[simp] theorem setMainCells_rt (s : State) (i : Nat) (ws : List Half) : (s.setMainCells i ws).rt = s.rt := rfl
@[simp] theorem setMainCells_res (s : State) (i : Nat) (ws : List Half) : (s.setMainCells i ws).res = s.res := rfl
@[simp] theorem setMainCells_rs0 (s : State) (i : Nat) (ws : List Half) : (s.setMainCells i ws).rs0 = s.rs0 := rfl
@[simp] theorem setMainCells_rs1 (s : State) (i : Nat) (ws : List Half) : (s.setMainCells i ws).rs1 = s.rs1 := rfl
@[simp] theorem setMainCells_rs2 (s : State) (i : Nat) (ws : List Half) : (s.setMainCells i ws).rs2 = s.rs2 := rfl
@[simp] theorem setMainCells_rs3 (s : State) (i : Nat) (ws : List Half) : (s.setMainCells i ws).rs3 = s.rs3 := rfl
@[simp] theorem setMainCells_rb1 (s : State) (i : Nat) (ws : List Half) : (s.setMainCells i ws).rb1 = s.rb1 := rfl
@[simp] theorem setMainCells_rb0 (s : State) (i : Nat) (ws : List Half) : (s.setMainCells i ws).rb0 = s.rb0 := rfl
@[simp] theorem setMainCells_fault (s : State) (i : Nat) (ws : List Half) : (s.setMainCells i ws).fault = s.fault := rfl
@[simp] theorem setMainCells_host (s : State) (i : Nat) (ws : List Half) : (s.setMainCells i ws).host = s.host := rfl
@[simp] theorem setMainCells_response (s : State) (i : Nat) (ws : List Half) : (s.setMainCells i ws).response = s.response := rfl
@[simp] theorem setMainCells_turns (s : State) (i : Nat) (ws : List Half) : (s.setMainCells i ws).turns = s.turns := rfl
@[simp] theorem setMainCells_draws (s : State) (i : Nat) (ws : List Half) : (s.setMainCells i ws).draws = s.draws := rfl

/-! ### finishPending -/

@[simp] theorem finishPending_cfg (s : State) : (finishPending s).cfg = s.cfg := rfl
@[simp] theorem finishPending_lock (s : State) : (finishPending s).lock = s.lock := rfl
@[simp] theorem finishPending_obl (s : State) : (finishPending s).obl = s.obl := rfl
@[simp] theorem finishPending_mkFsm (s : State) : (finishPending s).mkFsm = s.mkFsm := rfl
@[simp] theorem finishPending_okFsm (s : State) : (finishPending s).okFsm = s.okFsm := rfl
@[simp] theorem finishPending_pg (s : State) : (finishPending s).pg = s.pg := rfl
@[simp] theorem finishPending_per (s : State) : (finishPending s).per = s.per := rfl
@[simp] theorem finishPending_obpg (s : State) : (finishPending s).obpg = s.obpg := rfl
@[simp] theorem finishPending_ober (s : State) : (finishPending s).ober = s.ober := rfl
@[simp] theorem finishPending_strt (s : State) : (finishPending s).strt = false := rfl
@[simp] theorem finishPending_addr (s : State) : (finishPending s).addr = s.addr := rfl
@[simp] theorem finishPending_bsy (s : State) : (finishPending s).bsy = false := rfl
@[simp] theorem finishPending_eop (s : State) : (finishPending s).eop = s.eop := rfl
@[simp] theorem finishPending_wrprterr (s : State) : (finishPending s).wrprterr = s.wrprterr := rfl
@[simp] theorem finishPending_pend (s : State) : (finishPending s).pend = .none := rfl
@[simp] theorem finishPending_main (s : State) : (finishPending s).main = s.main := rfl
@[simp] theorem finishPending_ob (s : State) : (finishPending s).ob = s.ob := rfl
@[simp] theorem finishPending_seqOp (s : State) : (finishPending s).seqOp = s.seqOp := rfl
@[simp] theorem finishPending_spc (s : State) : (finishPending s).spc = s.spc := rfl
@[simp] theorem finishPending_ra (s : State) : (finishPending s).ra = s.ra := rfl
@[simp] theorem finishPending_rd (s : State) : (finishPending s).rd = s.rd := rfl
@[simp] theorem finishPending_rt (s : State) : (finishPending s).rt = s.rt := rfl
@[simp] theorem finishPending_res (s : State) : (finishPending s).res = s.res := rfl
@[simp] theorem finishPending_rs0 (s : State) : (finishPending s).rs0 = s.rs0 := rfl
@[simp] theorem finishPending_rs1 (s : State) : (finishPending s).rs1 = s.rs1 := rfl
@[simp] theorem finishPending_rs2 (s : State) : (finishPending s).rs2 = s.rs2 := rfl
@[simp] theorem finishPending_rs3 (s : State) : (finishPending s).rs3 = s.rs3 := rfl
@[simp] theorem finishPending_rb1 (s : State) : (finishPending s).rb1 = s.rb1 := rfl
@[simp] theorem finishPending_rb0 (s : State) : (finishPending s).rb0 = s.rb0 := rfl
@[simp] theorem finishPending_fault (s : State) : (finishPending s).fault = s.fault := rfl
@[simp] theorem finishPending_host (s : State) : (finishPending s).host = s.host := rfl
@[simp] theorem finishPending_response (s : State) : (finishPending s).response = s.response := rfl
@[simp] theorem finishPending_turns (s : State) : (finishPending s).turns = s.turns := rfl
@[simp] theorem finishPending_draws (s : State) : (finishPending s).draws = s.draws := rfl

/-! ### marked -/

@[simp] theorem marked_cfg (s : State) (f : Fault) : (s.marked f).cfg = s.cfg := rfl
@[simp] theorem marked_lock (s : State) (f : Fault) : (s.marked f).lock = s.lock := rfl
@[simp] theorem marked_obl (s : State) (f : Fault) : (s.marked f).obl = s.obl := rfl
@[simp] theorem marked_mkFsm (s : State) (f : Fault) : (s.marked f).mkFsm = s.mkFsm := rfl
@[simp] theorem marked_okFsm (s : State) (f : Fault) : (s.marked f).okFsm = s.okFsm := rfl
@[simp] theorem marked_pg (s : State) (f : Fault) : (s.marked f).pg = s.pg := rfl
@[simp] theorem marked_per (s : State) (f : Fault) : (s.marked f).per = s.per := rfl
@[simp] theorem marked_obpg (s : State) (f : Fault) : (s.marked f).obpg = s.obpg := rfl
@[simp] theorem marked_ober (s : State) (f : Fault) : (s.marked f).ober = s.ober := rfl
@[simp] theorem marked_strt (s : State) (f : Fault) : (s.marked f).strt = s.strt := rfl
@[simp] theorem marked_addr (s : State) (f : Fault) : (s.marked f).addr = s.addr := rfl
@[simp] theorem marked_bsy (s : State) (f : Fault) : (s.marked f).bsy = s.bsy := rfl
@[simp] theorem marked_eop (s : State) (f : Fault) : (s.marked f).eop = s.eop := rfl
@[simp] theorem marked_wrprterr (s : State) (f : Fault) : (s.marked f).wrprterr = s.wrprterr := rfl
@[simp] theorem marked_pend (s : State) (f : Fault) : (s.marked f).pend = s.pend := rfl
@[simp] theorem marked_main (s : State) (f : Fault) : (s.marked f).main = s.main := rfl
@[simp] theorem marked_ob (s : State) (f : Fault) : (s.marked f).ob = s.ob := rfl
@[simp] theorem marked_seqOp (s : State) (f : Fault) : (s.marked f).seqOp = s.seqOp := rfl
@[simp] theorem marked_spc (s : State) (f : Fault) : (s.marked f).spc = s.spc := rfl
@[simp] theorem marked_ra (s : State) (f : Fault) : (s.marked f).ra = s.ra := rfl
@[simp] theorem marked_rd (s : State) (f : Fault) : (s.marked f).rd = s.rd := rfl
@[simp] theorem marked_rt (s : State) (f : Fault) : (s.marked f).rt = s.rt := rfl
@[simp] theorem marked_res (s : State) (f : Fault) : (s.marked f).res = s.res := rfl
@[simp] theorem marked_rs0 (s : State) (f : Fault) : (s.marked f).rs0 = s.rs0 := rfl
@[simp] theorem marked_rs1 (s : State) (f : Fault) : (s.marked f).rs1 = s.rs1 := rfl
@[simp] theorem marked_rs2 (s : State) (f : Fault) : (s.marked f).rs2 = s.rs2 := rfl
@[simp] theorem marked_rs3 (s : State) (f : Fault) : (s.marked f).rs3 = s.rs3 := rfl
@[simp] theorem marked_rb1 (s : State) (f : Fault) : (s.marked f).rb1 = s.rb1 := rfl
@[simp] theorem marked_rb0 (s : State) (f : Fault) : (s.marked f).rb0 = s.rb0 := rfl
@[simp] theorem marked_fault (s : State) (f : Fault) : (s.marked f).fault = some (s.fault.getD f) := rfl
@[simp] theorem marked_host (s : State) (f : Fault) : (s.marked f).host = s.host := rfl
@[simp] theorem marked_response (s : State) (f : Fault) : (s.marked f).response = s.response := rfl
@[simp] theorem marked_turns (s : State) (f : Fault) : (s.marked f).turns = s.turns := rfl
@[simp] theorem marked_draws (s : State) (f : Fault) : (s.marked f).draws = s.draws := rfl

/-! ### presentWord -/

@[simp] theorem presentWord_cfg (s : State) (w : CommandWord) : (presentWord s w).cfg = s.cfg := rfl
@[simp] theorem presentWord_lock (s : State) (w : CommandWord) : (presentWord s w).lock = s.lock := rfl
@[simp] theorem presentWord_obl (s : State) (w : CommandWord) : (presentWord s w).obl = s.obl := rfl
@[simp] theorem presentWord_mkFsm (s : State) (w : CommandWord) : (presentWord s w).mkFsm = s.mkFsm := rfl
@[simp] theorem presentWord_okFsm (s : State) (w : CommandWord) : (presentWord s w).okFsm = s.okFsm := rfl
@[simp] theorem presentWord_pg (s : State) (w : CommandWord) : (presentWord s w).pg = s.pg := rfl
@[simp] theorem presentWord_per (s : State) (w : CommandWord) : (presentWord s w).per = s.per := rfl
@[simp] theorem presentWord_obpg (s : State) (w : CommandWord) : (presentWord s w).obpg = s.obpg := rfl
@[simp] theorem presentWord_ober (s : State) (w : CommandWord) : (presentWord s w).ober = s.ober := rfl
@[simp] theorem presentWord_strt (s : State) (w : CommandWord) : (presentWord s w).strt = s.strt := rfl
@[simp] theorem presentWord_addr (s : State) (w : CommandWord) : (presentWord s w).addr = s.addr := rfl
@[simp] theorem presentWord_bsy (s : State) (w : CommandWord) : (presentWord s w).bsy = s.bsy := rfl
@[simp] theorem presentWord_eop (s : State) (w : CommandWord) : (presentWord s w).eop = s.eop := rfl
@[simp] theorem presentWord_wrprterr (s : State) (w : CommandWord) : (presentWord s w).wrprterr = s.wrprterr := rfl
@[simp] theorem presentWord_pend (s : State) (w : CommandWord) : (presentWord s w).pend = s.pend := rfl
@[simp] theorem presentWord_main (s : State) (w : CommandWord) : (presentWord s w).main = s.main := rfl
@[simp] theorem presentWord_ob (s : State) (w : CommandWord) : (presentWord s w).ob = s.ob := rfl
@[simp] theorem presentWord_seqOp (s : State) (w : CommandWord) : (presentWord s w).seqOp = none := rfl
@[simp] theorem presentWord_spc (s : State) (w : CommandWord) : (presentWord s w).spc = s.spc := rfl
@[simp] theorem presentWord_ra (s : State) (w : CommandWord) : (presentWord s w).ra = s.ra := rfl
@[simp] theorem presentWord_rd (s : State) (w : CommandWord) : (presentWord s w).rd = s.rd := rfl
@[simp] theorem presentWord_rt (s : State) (w : CommandWord) : (presentWord s w).rt = s.rt := rfl
@[simp] theorem presentWord_res (s : State) (w : CommandWord) : (presentWord s w).res = s.res := rfl
@[simp] theorem presentWord_rs0 (s : State) (w : CommandWord) : (presentWord s w).rs0 = s.rs0 := rfl
@[simp] theorem presentWord_rs1 (s : State) (w : CommandWord) : (presentWord s w).rs1 = s.rs1 := rfl
@[simp] theorem presentWord_rs2 (s : State) (w : CommandWord) : (presentWord s w).rs2 = s.rs2 := rfl
@[simp] theorem presentWord_rs3 (s : State) (w : CommandWord) : (presentWord s w).rs3 = s.rs3 := rfl
@[simp] theorem presentWord_rb1 (s : State) (w : CommandWord) : (presentWord s w).rb1 = s.rb1 := rfl
@[simp] theorem presentWord_rb0 (s : State) (w : CommandWord) : (presentWord s w).rb0 = s.rb0 := rfl
@[simp] theorem presentWord_fault (s : State) (w : CommandWord) : (presentWord s w).fault = none := rfl
@[simp] theorem presentWord_host (s : State) (w : CommandWord) : (presentWord s w).host = .command w :: s.host := rfl
@[simp] theorem presentWord_response (s : State) (w : CommandWord) : (presentWord s w).response = s.response := rfl
@[simp] theorem presentWord_turns (s : State) (w : CommandWord) : (presentWord s w).turns = [] := rfl
@[simp] theorem presentWord_draws (s : State) (w : CommandWord) : (presentWord s w).draws = s.draws := rfl

/-! ### ended -/

@[simp] theorem ended_cfg (s : State) (a d : Word) (n : Nat) (r : Response) : (s.ended a d n r).cfg = s.cfg := rfl
@[simp] theorem ended_lock (s : State) (a d : Word) (n : Nat) (r : Response) : (s.ended a d n r).lock = s.lock := rfl
@[simp] theorem ended_obl (s : State) (a d : Word) (n : Nat) (r : Response) : (s.ended a d n r).obl = s.obl := rfl
@[simp] theorem ended_mkFsm (s : State) (a d : Word) (n : Nat) (r : Response) : (s.ended a d n r).mkFsm = s.mkFsm := rfl
@[simp] theorem ended_okFsm (s : State) (a d : Word) (n : Nat) (r : Response) : (s.ended a d n r).okFsm = s.okFsm := rfl
@[simp] theorem ended_pg (s : State) (a d : Word) (n : Nat) (r : Response) : (s.ended a d n r).pg = s.pg := rfl
@[simp] theorem ended_per (s : State) (a d : Word) (n : Nat) (r : Response) : (s.ended a d n r).per = s.per := rfl
@[simp] theorem ended_obpg (s : State) (a d : Word) (n : Nat) (r : Response) : (s.ended a d n r).obpg = s.obpg := rfl
@[simp] theorem ended_ober (s : State) (a d : Word) (n : Nat) (r : Response) : (s.ended a d n r).ober = s.ober := rfl
@[simp] theorem ended_strt (s : State) (a d : Word) (n : Nat) (r : Response) : (s.ended a d n r).strt = s.strt := rfl
@[simp] theorem ended_addr (s : State) (a d : Word) (n : Nat) (r : Response) : (s.ended a d n r).addr = s.addr := rfl
@[simp] theorem ended_bsy (s : State) (a d : Word) (n : Nat) (r : Response) : (s.ended a d n r).bsy = s.bsy := rfl
@[simp] theorem ended_eop (s : State) (a d : Word) (n : Nat) (r : Response) : (s.ended a d n r).eop = s.eop := rfl
@[simp] theorem ended_wrprterr (s : State) (a d : Word) (n : Nat) (r : Response) : (s.ended a d n r).wrprterr = s.wrprterr := rfl
@[simp] theorem ended_pend (s : State) (a d : Word) (n : Nat) (r : Response) : (s.ended a d n r).pend = s.pend := rfl
@[simp] theorem ended_main (s : State) (a d : Word) (n : Nat) (r : Response) : (s.ended a d n r).main = s.main := rfl
@[simp] theorem ended_ob (s : State) (a d : Word) (n : Nat) (r : Response) : (s.ended a d n r).ob = s.ob := rfl
@[simp] theorem ended_seqOp (s : State) (a d : Word) (n : Nat) (r : Response) : (s.ended a d n r).seqOp = none := rfl
@[simp] theorem ended_spc (s : State) (a d : Word) (n : Nat) (r : Response) : (s.ended a d n r).spc = n := rfl
@[simp] theorem ended_ra (s : State) (a d : Word) (n : Nat) (r : Response) : (s.ended a d n r).ra = a := rfl
@[simp] theorem ended_rd (s : State) (a d : Word) (n : Nat) (r : Response) : (s.ended a d n r).rd = d := rfl
@[simp] theorem ended_rt (s : State) (a d : Word) (n : Nat) (r : Response) : (s.ended a d n r).rt = s.rt := rfl
@[simp] theorem ended_res (s : State) (a d : Word) (n : Nat) (r : Response) : (s.ended a d n r).res = s.res := rfl
@[simp] theorem ended_rs0 (s : State) (a d : Word) (n : Nat) (r : Response) : (s.ended a d n r).rs0 = s.rs0 := rfl
@[simp] theorem ended_rs1 (s : State) (a d : Word) (n : Nat) (r : Response) : (s.ended a d n r).rs1 = s.rs1 := rfl
@[simp] theorem ended_rs2 (s : State) (a d : Word) (n : Nat) (r : Response) : (s.ended a d n r).rs2 = s.rs2 := rfl
@[simp] theorem ended_rs3 (s : State) (a d : Word) (n : Nat) (r : Response) : (s.ended a d n r).rs3 = s.rs3 := rfl
@[simp] theorem ended_rb1 (s : State) (a d : Word) (n : Nat) (r : Response) : (s.ended a d n r).rb1 = s.rb1 := rfl
@[simp] theorem ended_rb0 (s : State) (a d : Word) (n : Nat) (r : Response) : (s.ended a d n r).rb0 = s.rb0 := rfl
@[simp] theorem ended_fault (s : State) (a d : Word) (n : Nat) (r : Response) : (s.ended a d n r).fault = s.fault := rfl
@[simp] theorem ended_host (s : State) (a d : Word) (n : Nat) (r : Response) : (s.ended a d n r).host = s.host := rfl
@[simp] theorem ended_response (s : State) (a d : Word) (n : Nat) (r : Response) : (s.ended a d n r).response = some r := rfl
@[simp] theorem ended_turns (s : State) (a d : Word) (n : Nat) (r : Response) : (s.ended a d n r).turns = s.turns.tail := rfl
@[simp] theorem ended_draws (s : State) (a d : Word) (n : Nat) (r : Response) : (s.ended a d n r).draws = s.draws := rfl

/-! ### clearControl -/

@[simp] theorem clearControl_cfg (s : State) : (clearControl s).cfg = s.cfg := rfl
@[simp] theorem clearControl_lock (s : State) : (clearControl s).lock = true := rfl
@[simp] theorem clearControl_obl (s : State) : (clearControl s).obl = true := rfl
@[simp] theorem clearControl_mkFsm (s : State) : (clearControl s).mkFsm = .idle := rfl
@[simp] theorem clearControl_okFsm (s : State) : (clearControl s).okFsm = .idle := rfl
@[simp] theorem clearControl_pg (s : State) : (clearControl s).pg = false := rfl
@[simp] theorem clearControl_per (s : State) : (clearControl s).per = false := rfl
@[simp] theorem clearControl_obpg (s : State) : (clearControl s).obpg = false := rfl
@[simp] theorem clearControl_ober (s : State) : (clearControl s).ober = false := rfl
@[simp] theorem clearControl_strt (s : State) : (clearControl s).strt = false := rfl
@[simp] theorem clearControl_addr (s : State) : (clearControl s).addr = 0#32 := rfl
@[simp] theorem clearControl_bsy (s : State) : (clearControl s).bsy = false := rfl
@[simp] theorem clearControl_eop (s : State) : (clearControl s).eop = false := rfl
@[simp] theorem clearControl_wrprterr (s : State) : (clearControl s).wrprterr = false := rfl
@[simp] theorem clearControl_pend (s : State) : (clearControl s).pend = .none := rfl
@[simp] theorem clearControl_main (s : State) : (clearControl s).main = s.main := rfl
@[simp] theorem clearControl_ob (s : State) : (clearControl s).ob = s.ob := rfl
@[simp] theorem clearControl_seqOp (s : State) : (clearControl s).seqOp = none := rfl
@[simp] theorem clearControl_spc (s : State) : (clearControl s).spc = 0 := rfl
@[simp] theorem clearControl_ra (s : State) : (clearControl s).ra = s.ra := rfl
@[simp] theorem clearControl_rd (s : State) : (clearControl s).rd = s.rd := rfl
@[simp] theorem clearControl_rt (s : State) : (clearControl s).rt = s.rt := rfl
@[simp] theorem clearControl_res (s : State) : (clearControl s).res = s.res := rfl
@[simp] theorem clearControl_rs0 (s : State) : (clearControl s).rs0 = s.rs0 := rfl
@[simp] theorem clearControl_rs1 (s : State) : (clearControl s).rs1 = s.rs1 := rfl
@[simp] theorem clearControl_rs2 (s : State) : (clearControl s).rs2 = s.rs2 := rfl
@[simp] theorem clearControl_rs3 (s : State) : (clearControl s).rs3 = s.rs3 := rfl
@[simp] theorem clearControl_rb1 (s : State) : (clearControl s).rb1 = s.rb1 := rfl
@[simp] theorem clearControl_rb0 (s : State) : (clearControl s).rb0 = s.rb0 := rfl
@[simp] theorem clearControl_fault (s : State) : (clearControl s).fault = s.fault := rfl
@[simp] theorem clearControl_host (s : State) : (clearControl s).host = s.host := rfl
@[simp] theorem clearControl_response (s : State) : (clearControl s).response = s.response := rfl
@[simp] theorem clearControl_turns (s : State) : (clearControl s).turns = s.turns := rfl
@[simp] theorem clearControl_draws (s : State) : (clearControl s).draws = s.draws := rfl

/-! ### forgetRegisters -/

@[simp] theorem forgetRegisters_cfg (s : State) : (forgetRegisters s).cfg = s.cfg := rfl
@[simp] theorem forgetRegisters_lock (s : State) : (forgetRegisters s).lock = s.lock := rfl
@[simp] theorem forgetRegisters_obl (s : State) : (forgetRegisters s).obl = s.obl := rfl
@[simp] theorem forgetRegisters_mkFsm (s : State) : (forgetRegisters s).mkFsm = s.mkFsm := rfl
@[simp] theorem forgetRegisters_okFsm (s : State) : (forgetRegisters s).okFsm = s.okFsm := rfl
@[simp] theorem forgetRegisters_pg (s : State) : (forgetRegisters s).pg = s.pg := rfl
@[simp] theorem forgetRegisters_per (s : State) : (forgetRegisters s).per = s.per := rfl
@[simp] theorem forgetRegisters_obpg (s : State) : (forgetRegisters s).obpg = s.obpg := rfl
@[simp] theorem forgetRegisters_ober (s : State) : (forgetRegisters s).ober = s.ober := rfl
@[simp] theorem forgetRegisters_strt (s : State) : (forgetRegisters s).strt = s.strt := rfl
@[simp] theorem forgetRegisters_addr (s : State) : (forgetRegisters s).addr = s.addr := rfl
@[simp] theorem forgetRegisters_bsy (s : State) : (forgetRegisters s).bsy = s.bsy := rfl
@[simp] theorem forgetRegisters_eop (s : State) : (forgetRegisters s).eop = s.eop := rfl
@[simp] theorem forgetRegisters_wrprterr (s : State) : (forgetRegisters s).wrprterr = s.wrprterr := rfl
@[simp] theorem forgetRegisters_pend (s : State) : (forgetRegisters s).pend = s.pend := rfl
@[simp] theorem forgetRegisters_main (s : State) : (forgetRegisters s).main = s.main := rfl
@[simp] theorem forgetRegisters_ob (s : State) : (forgetRegisters s).ob = s.ob := rfl
@[simp] theorem forgetRegisters_seqOp (s : State) : (forgetRegisters s).seqOp = s.seqOp := rfl
@[simp] theorem forgetRegisters_spc (s : State) : (forgetRegisters s).spc = s.spc := rfl
@[simp] theorem forgetRegisters_ra (s : State) : (forgetRegisters s).ra = Config.any32 s.draws := rfl
@[simp] theorem forgetRegisters_rd (s : State) : (forgetRegisters s).rd = Config.any32 (s.draws + 1) := rfl
@[simp] theorem forgetRegisters_rt (s : State) : (forgetRegisters s).rt = Config.any32 (s.draws + 2) := rfl
@[simp] theorem forgetRegisters_res (s : State) : (forgetRegisters s).res = Config.any32 (s.draws + 3) := rfl
@[simp] theorem forgetRegisters_rs0 (s : State) : (forgetRegisters s).rs0 = Config.any16 (s.draws + 4) := rfl
@[simp] theorem forgetRegisters_rs1 (s : State) : (forgetRegisters s).rs1 = Config.any16 (s.draws + 5) := rfl
@[simp] theorem forgetRegisters_rs2 (s : State) : (forgetRegisters s).rs2 = Config.any16 (s.draws + 6) := rfl
@[simp] theorem forgetRegisters_rs3 (s : State) : (forgetRegisters s).rs3 = Config.any16 (s.draws + 7) := rfl
@[simp] theorem forgetRegisters_rb1 (s : State) : (forgetRegisters s).rb1 = Config.any8 (s.draws + 8) := rfl
@[simp] theorem forgetRegisters_rb0 (s : State) : (forgetRegisters s).rb0 = Config.any8 (s.draws + 9) := rfl
@[simp] theorem forgetRegisters_fault (s : State) : (forgetRegisters s).fault = s.fault := rfl
@[simp] theorem forgetRegisters_host (s : State) : (forgetRegisters s).host = s.host := rfl
@[simp] theorem forgetRegisters_response (s : State) : (forgetRegisters s).response = s.response := rfl
@[simp] theorem forgetRegisters_turns (s : State) : (forgetRegisters s).turns = s.turns := rfl
@[simp] theorem forgetRegisters_draws (s : State) : (forgetRegisters s).draws = s.draws + 10 := rfl

/-! ### Reads through an update that keeps main flash and the parameters -/

theorem mainByte_congr {s t : State} (h : t.main = s.main) (b : Nat) : t.mainByte b = s.mainByte b := by
  simp [State.mainByte, h]

theorem mainCell_congr {s t : State} (h : t.main = s.main) (hc : t.cfg = s.cfg) (i : Nat) :
    t.mainCell i = s.mainCell i := by
  simp [State.mainCell, State.mainByte, h, hc]

end Sys2Proof.Machine
end

