-- ==== Sys2Proof/Laws/Agents.lean ====
section
/-! SUPPORT. The step relation with the fault mark: when steps are enabled, and what a marked run does.
Proofs about `agentStep` and `markedStep` cite these. -/

namespace Sys2Proof.Machine

/-- With no fault marked the steps are enabled (R138). -/
theorem agentStep_safe {s : State} (h : s.fault = none) (g : Agent) : agentStep g s = agentMove g s := by
  simp only [agentStep, h]

/-- With a fault marked no step is enabled (R138). -/
theorem agentStep_marked {s : State} {f : Fault} (h : s.fault = some f) (g : Agent) :
    agentStep g s = .fault f := by
  simp only [agentStep, h]

/-- A step that answers a next state was taken with no fault marked, and is the agent's move. -/
theorem agentStep_next {g : Agent} {s t : State} (h : agentStep g s = .next t) :
    s.fault = none ∧ agentMove g s = .next t := by
  cases hf : s.fault with
  | none => exact ⟨rfl, by rw [← agentStep_safe hf]; exact h⟩
  | some f => rw [agentStep_marked hf] at h; cases h

@[simp] theorem markOutcome_next (s t : State) : markOutcome s (.next t) = t := rfl
@[simp] theorem markOutcome_fault (s : State) (f : Fault) : markOutcome s (.fault f) = s.marked f := rfl
@[simp] theorem markOutcome_refused (s : State) (r : Refusal) :
    markOutcome s (.refused r) = s.marked .illegalCommand := rfl

@[simp] theorem runMarked_nil (s : State) : runMarked [] s = s := rfl
@[simp] theorem runMarked_cons (g : Agent) (gs : List Agent) (s : State) :
    runMarked (g :: gs) s = runMarked gs (markedAgentStep g s) := rfl

/-- The first mark is kept (R40). -/
theorem marked_keeps_first {s : State} {f : Fault} (h : s.fault = some f) (f' : Fault) :
    s.marked f' = s := by
  cases s
  simp_all [State.marked]

/-- Marked, no agent changes anything. -/
theorem markedAgentStep_marked {s : State} {f : Fault} (h : s.fault = some f) (g : Agent) :
    markedAgentStep g s = s := by
  rw [markedAgentStep, agentStep_marked h, markOutcome_fault, marked_keeps_first h]

/-- A run of enabled steps that does not fault is the same with and without the mark. -/
theorem runMarked_of_runAgents {gs : List Agent} {s t : State} (h : runAgents gs s = .next t) :
    runMarked gs s = t := by
  induction gs generalizing s with
  | nil => cases h; rfl
  | cons g gs ih =>
    rw [runMarked_cons, markedAgentStep]
    rw [runAgents] at h
    split at h
    · rename_i s' hs
      rw [hs, markOutcome_next]
      exact ih h
    · cases h
    · cases h

end Sys2Proof.Machine
end

