-- ==== Sys2Proof/Laws/Encoding.lean ====
section
/-! SUPPORT. The opcode map in both directions, the fields of an encoded word, and a command rebuilt
from its name and operands. -/

namespace Sys2Proof

/-- Each command's opcode names that command (R93). -/
@[simp] theorem Op.ofCode_code (op : Op) : Op.ofCode op.code = some op := by cases op <;> rfl

@[simp] theorem Op.op_instr (op : Op) (a d : Word) : (op.instr a d).op = op := by cases op <;> rfl
@[simp] theorem Op.a_instr (op : Op) (a d : Word) : (op.instr a d).a = a := by cases op <;> rfl
@[simp] theorem Op.d_instr (op : Op) (a d : Word) : (op.instr a d).d = d := by cases op <;> rfl

/-- A word made of three fields is read back field by field (R91). -/
theorem fields_append (c : BitVec 8) (a d : Word) :
    opField (c ++ a ++ d) = c ∧ aField (c ++ a ++ d) = a ∧ dField (c ++ a ++ d) = d := by
  refine ⟨?_, ?_, ?_⟩ <;> apply BitVec.eq_of_getLsbD_eq <;> intro i hi <;>
    simp only [opField, aField, dField, BitVec.getLsbD_extractLsb', BitVec.getLsbD_append] <;>
    simp only [hi, decide_true, Bool.true_and]
  · simp [show ¬(64 + i < 32) by omega, show 64 + i - 32 - 32 = i by omega,
      show ¬(64 + i - 32 < 32) by omega]
  · simp [show ¬(32 + i < 32) by omega, hi]
  · simp [hi]

/-- A word is its three fields (R91). -/
theorem append_fields (w : CommandWord) : opField w ++ aField w ++ dField w = w := by
  apply BitVec.eq_of_getLsbD_eq
  intro i hi
  simp only [opField, aField, dField, BitVec.getLsbD_extractLsb', BitVec.getLsbD_append]
  by_cases h1 : i < 32
  · simp [h1]
  · by_cases h2 : i - 32 < 32
    · simp [h1, h2, show 32 + (i - 32) = i by omega]
    · simp [h1, h2, show 64 + (i - 32 - 32) = i by omega, show i - 32 - 32 < 8 by omega]

end Sys2Proof
end

