-- ==== Sys2Proof/Laws/Flags.lean ====
section
/-! SUPPORT. What each bit of a register word reads as, when the parameters keep their constraints
(spec R100, R7). -/

namespace Sys2Proof.Machine

@[simp] theorem bitOf_maskOf (k j : Nat) : bitOf (maskOf k) j = (decide (j < 32) && decide (j = k)) := by
  simp only [bitOf, maskOf, BitVec.getLsbD_shiftLeft, BitVec.getLsbD_one]
  by_cases h : j < 32 <;> by_cases e : j = k <;> simp [h, e]; omega

@[simp] theorem bitOf_zero (j : Nat) : bitOf 0#32 j = false := by simp [bitOf]

@[simp] theorem bitOf_fieldAt (k : Nat) (b : Bool) (j : Nat) :
    bitOf (fieldAt k b) j = (b && (decide (j < 32) && decide (j = k))) := by
  cases b <;> simp [fieldAt]

@[simp] theorem bitOf_or (v w : Word) (j : Nat) : bitOf (v ||| w) j = (bitOf v j || bitOf w j) := by
  simp [bitOf]

@[simp] theorem bitOf_and (v w : Word) (j : Nat) : bitOf (v &&& w) j = (bitOf v j && bitOf w j) := by
  simp [bitOf]

@[simp] theorem bitOf_not (v : Word) (j : Nat) :
    bitOf (~~~v) j = (decide (j < 32) && !(bitOf v j)) := by
  simp [bitOf]

/-- Two words are equal when all 32 bits are. -/
theorem word_ext {v w : Word} (h : ∀ j, j < 32 → bitOf v j = bitOf w j) : v = w := by
  apply BitVec.eq_of_getLsbD_eq
  intro i hi
  exact h i hi

/-- The positions of STATR, spelled out. -/
theorem config_statr {c : Config} (h : c.Ok) :
    (c.bsyBit ≠ c.eopBit ∧ c.bsyBit ≠ c.wrprterrBit ∧ c.eopBit ≠ c.wrprterrBit) ∧
    c.bsyBit < 32 ∧ c.eopBit < 32 ∧ c.wrprterrBit < 32 := by
  have h1 := h.statr_distinct
  have h2 := h.statr_small
  simp [Config.statrBits] at h1 h2
  tauto

/-- The positions of CTLR are below 32. -/
theorem config_ctlr_lt {c : Config} (h : c.Ok) :
    c.pgBit < 32 ∧ c.perBit < 32 ∧ c.obpgBit < 32 ∧ c.oberBit < 32 ∧ c.strtBit < 32 ∧
    c.lockBit < 32 := by
  have h2 := h.ctlr_small
  simpa [Config.ctlrBits] using h2

/-- The positions of CTLR differ. -/
theorem config_ctlr_ne {c : Config} (h : c.Ok) :
    (c.pgBit ≠ c.perBit ∧ c.pgBit ≠ c.obpgBit ∧ c.pgBit ≠ c.oberBit ∧ c.pgBit ≠ c.strtBit ∧
      c.pgBit ≠ c.lockBit) ∧
    (c.perBit ≠ c.obpgBit ∧ c.perBit ≠ c.oberBit ∧ c.perBit ≠ c.strtBit ∧ c.perBit ≠ c.lockBit) ∧
    (c.obpgBit ≠ c.oberBit ∧ c.obpgBit ≠ c.strtBit ∧ c.obpgBit ≠ c.lockBit) ∧
    (c.oberBit ≠ c.strtBit ∧ c.oberBit ≠ c.lockBit) ∧ c.strtBit ≠ c.lockBit := by
  have h1 := h.ctlr_distinct
  simp [Config.ctlrBits] at h1
  tauto

@[simp] theorem bitOf_statrWord_bsy {s : State} (h : s.cfg.Ok) :
    bitOf (statrWord s) s.cfg.bsyBit = s.bsy := by
  obtain ⟨⟨h1, h2, h3⟩, l1, l2, l3⟩ := config_statr h
  simp [statrWord, *]

@[simp] theorem bitOf_statrWord_eop {s : State} (h : s.cfg.Ok) :
    bitOf (statrWord s) s.cfg.eopBit = s.eop := by
  obtain ⟨⟨h1, h2, h3⟩, l1, l2, l3⟩ := config_statr h
  simp [statrWord, h1.symm, *]

@[simp] theorem bitOf_statrWord_wrprterr {s : State} (h : s.cfg.Ok) :
    bitOf (statrWord s) s.cfg.wrprterrBit = s.wrprterr := by
  obtain ⟨⟨h1, h2, h3⟩, l1, l2, l3⟩ := config_statr h
  simp [statrWord, h2.symm, h3.symm, *]

/-- Each bit of the CTLR word at the position of its field. -/
theorem bitOf_ctlrWord {s : State} (h : s.cfg.Ok) :
    bitOf (ctlrWord s) s.cfg.pgBit = s.pg ∧ bitOf (ctlrWord s) s.cfg.perBit = s.per ∧
    bitOf (ctlrWord s) s.cfg.obpgBit = s.obpg ∧ bitOf (ctlrWord s) s.cfg.oberBit = s.ober ∧
    bitOf (ctlrWord s) s.cfg.strtBit = s.strt ∧ bitOf (ctlrWord s) s.cfg.lockBit = s.lock := by
  obtain ⟨⟨a1, a2, a3, a4, a5⟩, ⟨b1, b2, b3, b4⟩, ⟨c1, c2, c3⟩, ⟨d1, d2⟩, e1⟩ := config_ctlr_ne h
  obtain ⟨l1, l2, l3, l4, l5, l6⟩ := config_ctlr_lt h
  refine ⟨?_, ?_, ?_, ?_, ?_, ?_⟩ <;>
    simp [ctlrWord, a1, a2, a3, a4, a5, b1, b2, b3, b4, c1, c2, c3, d1, d2, e1, a1.symm, a2.symm,
      a3.symm, a4.symm, a5.symm, b1.symm, b2.symm, b3.symm, b4.symm, c1.symm, c2.symm, c3.symm,
      d1.symm, d2.symm, e1.symm, l1, l2, l3, l4, l5, l6]

/-- A bit of `CTLR_DEFINED`. -/
theorem bitOf_ctlrDefined (c : Config) (j : Nat) :
    bitOf (ctlrDefined c) j = (decide (j < 32) && decide (j ∈ c.ctlrBits)) := by
  by_cases h : j < 32 <;> simp [ctlrDefined, Config.ctlrBits, h, Bool.decide_or]
  simp only [Bool.or_assoc]

/-- The CTLR word has no undefined bit (R26). -/
theorem ctlrWord_undefined (s : State) : ctlrWord s &&& ~~~(ctlrDefined s.cfg) = 0#32 := by
  apply word_ext
  intro j hj
  simp only [bitOf_and, bitOf_not, bitOf_ctlrDefined, hj, decide_true, Bool.true_and, bitOf_zero]
  by_cases hm : j ∈ s.cfg.ctlrBits
  · simp [hm]
  · have : bitOf (ctlrWord s) j = false := by
      simp [Config.ctlrBits] at hm
      simp [ctlrWord, hm]
    simp [this]

/-- The STATR word has no undefined bit (R28). -/
theorem statrWord_undefined (s : State) : statrWord s &&& ~~~(statrDefined s.cfg) = 0#32 := by
  apply word_ext
  intro j hj
  simp only [statrWord, statrDefined, bitOf_and, bitOf_not, bitOf_or, bitOf_fieldAt, bitOf_maskOf, hj,
    decide_true, Bool.true_and, bitOf_zero]
  by_cases h1 : j = s.cfg.bsyBit <;> by_cases h2 : j = s.cfg.eopBit <;>
    by_cases h3 : j = s.cfg.wrprterrBit <;> simp [h1, h2, h3]

end Sys2Proof.Machine
end

