-- ==== Sys2Proof/Laws/Memory.lean ====
section
/-! SUPPORT. The laws of main flash as a list of bytes (spec R33, R66): read after write, the canonical
form, and where a write can list an address. -/

namespace Sys2Proof.Machine

@[simp] theorem byte?_nil (a : Nat) : Memory.byte? [] a = none := rfl

@[simp] theorem byte?_cons (c : Host.Cell) (m : Memory) (a : Nat) :
    Memory.byte? (c :: m) a = if c.1 = a then some c.2 else Memory.byte? m a := rfl

/-- A write is read back at its own address. -/
@[simp] theorem byte?_write_same (m : Memory) (a : Nat) (v : Byte) :
    (m.write a v).byte? a = some v := by
  induction m with
  | nil => simp [Memory.write]
  | cons c m ih =>
    simp only [Memory.write]
    split
    · simp
    · split
      · simp
      · rename_i h1 h2
        simp [ih, Ne.symm h2]

/-- A write leaves every other address alone. -/
theorem byte?_write_ne (m : Memory) {a b : Nat} (v : Byte) (h : b ≠ a) :
    (m.write a v).byte? b = m.byte? b := by
  induction m with
  | nil => simp [Memory.write, Ne.symm h]
  | cons c m ih =>
    simp only [Memory.write]
    split
    · simp [Ne.symm h]
    · split
      · rename_i _ e
        subst e
        simp [Ne.symm h]
      · simp [ih]

/-- A write lists its address and otherwise only addresses listed before. -/
theorem mem_write {m : Memory} {a : Nat} {v : Byte} {c : Host.Cell} (h : c ∈ m.write a v) :
    c.1 = a ∨ c ∈ m := by
  induction m with
  | nil => simp [Memory.write] at h; simp [h]
  | cons d m ih =>
    simp only [Memory.write] at h
    split at h
    · simp at h; rcases h with h | h | h <;> simp [h]
    · split at h
      · simp at h; rcases h with h | h <;> simp [h]
      · simp at h
        rcases h with h | h
        · simp [h]
        · rcases ih h with h | h <;> simp [h]

/-- The canonical form, as one fact about the addresses. -/
theorem wf_iff_sorted (m : Memory) : m.wf = true ↔ m.Pairwise (fun c d => c.1 < d.1) := by
  induction m with
  | nil => simp [Memory.wf]
  | cons c m ih =>
    cases m with
    | nil => simp [Memory.wf]
    | cons d m =>
      simp only [Memory.wf, Bool.and_eq_true, decide_eq_true_eq, ih, List.pairwise_cons,
        List.mem_cons, forall_eq_or_imp]
      constructor
      · rintro ⟨h1, h2, h3⟩
        exact ⟨⟨h1, fun e he => Nat.lt_trans h1 (h2 e he)⟩, h2, h3⟩
      · rintro ⟨⟨h1, _⟩, h2, h3⟩
        exact ⟨h1, h2, h3⟩

/-- A write keeps the canonical form. -/
theorem wf_write {m : Memory} (h : m.wf = true) (a : Nat) (v : Byte) : (m.write a v).wf = true := by
  rw [wf_iff_sorted] at h ⊢
  induction m with
  | nil => simp [Memory.write]
  | cons c m ih =>
    rw [List.pairwise_cons] at h
    simp only [Memory.write]
    split
    · rename_i hlt
      refine List.pairwise_cons.2 ⟨?_, List.pairwise_cons.2 h⟩
      intro d hd
      rcases List.mem_cons.1 hd with rfl | hd
      · exact hlt
      · exact Nat.lt_trans hlt (h.1 d hd)
    · split
      · rename_i _ e
        subst e
        exact List.pairwise_cons.2 h
      · rename_i h1 h2
        refine List.pairwise_cons.2 ⟨?_, ih h.2⟩
        intro d hd
        rcases mem_write hd with e | hd
        · omega
        · exact h.1 d hd

/-- Two canonical memories that read alike at every address are the same list. -/
theorem memory_ext {m n : Memory} (hm : m.wf = true) (hn : n.wf = true)
    (h : ∀ a, m.byte? a = n.byte? a) : m = n := by
  rw [wf_iff_sorted] at hm hn
  have below : ∀ {l : Memory} {a : Nat}, (∀ c ∈ l, a < c.1) → l.byte? a = none := by
    intro l a hl
    induction l with
    | nil => rfl
    | cons c l ih =>
      have := hl c (by simp)
      rw [byte?_cons, if_neg (by omega)]
      exact ih fun d hd => hl d (by simp [hd])
  induction m generalizing n with
  | nil =>
    cases n with
    | nil => rfl
    | cons d n => simpa using h d.1
  | cons c m ih =>
    cases n with
    | nil => simpa using h c.1
    | cons d n =>
      rw [List.pairwise_cons] at hm hn
      have hc := h c.1
      have hd := h d.1
      have e : c.1 = d.1 := by
        rcases Nat.lt_trichotomy c.1 d.1 with hlt | heq | hgt
        · rw [below (l := d :: n) (a := c.1)] at hc
          · simp at hc
          · intro x hx
            rcases List.mem_cons.1 hx with rfl | hx
            · exact hlt
            · exact Nat.lt_trans hlt (hn.1 x hx)
        · exact heq
        · rw [below (l := c :: m) (a := d.1)] at hd
          · simp at hd
          · intro x hx
            rcases List.mem_cons.1 hx with rfl | hx
            · exact hgt
            · exact Nat.lt_trans hgt (hm.1 x hx)
      have ev : c.2 = d.2 := by
        simp only [byte?_cons, e, if_true] at hc
        simpa using hc
      have ecd : c = d := Prod.ext e ev
      subst ecd
      rw [ih hm.2 hn.2]
      intro a
      by_cases ha : c.1 = a
      · subst ha
        rw [below hm.1, below hn.1]
      · have := h a
        simpa [ha] using this

theorem wf_writeHalf {m : Memory} (h : m.wf = true) (a : Nat) (w : Half) :
    (m.writeHalf a w).wf = true := wf_write (wf_write h _ _) _ _

theorem mem_writeHalf {m : Memory} {a : Nat} {w : Half} {c : Host.Cell} (h : c ∈ m.writeHalf a w) :
    c.1 = a ∨ c.1 = a + 1 ∨ c ∈ m := by
  rcases mem_write h with h | h
  · exact .inr (.inl h)
  · rcases mem_write h with h | h
    · exact .inl h
    · exact .inr (.inr h)

theorem byte?_writeHalf_low (m : Memory) (a : Nat) (w : Half) :
    (m.writeHalf a w).byte? a = some (lowByte w) := by
  rw [Memory.writeHalf, byte?_write_ne _ _ (by omega), byte?_write_same]

theorem byte?_writeHalf_high (m : Memory) (a : Nat) (w : Half) :
    (m.writeHalf a w).byte? (a + 1) = some (highByte w) := by
  rw [Memory.writeHalf, byte?_write_same]

theorem byte?_writeHalf_ne (m : Memory) {a b : Nat} (w : Half) (h : b ≠ a) (h' : b ≠ a + 1) :
    (m.writeHalf a w).byte? b = m.byte? b := by
  rw [Memory.writeHalf, byte?_write_ne _ _ h', byte?_write_ne _ _ h]

theorem wf_writeHalves (ws : List Half) {m : Memory} (h : m.wf = true) (a : Nat) :
    (m.writeHalves a ws).wf = true := by
  induction ws generalizing m a with
  | nil => exact h
  | cons w ws ih => exact ih (wf_writeHalf h a w) (a + 2)

theorem mem_writeHalves (ws : List Half) {m : Memory} {a : Nat} {c : Host.Cell}
    (h : c ∈ m.writeHalves a ws) : (a ≤ c.1 ∧ c.1 < a + 2 * ws.length) ∨ c ∈ m := by
  induction ws generalizing m a with
  | nil => exact .inr h
  | cons w ws ih =>
    simp only [List.length_cons]
    rcases ih h with h | h
    · exact .inl (by omega)
    · rcases mem_writeHalf h with h | h | h
      · exact .inl (by omega)
      · exact .inl (by omega)
      · exact .inr h

/-- Bytes outside the cells written keep their value. -/
theorem byte?_writeHalves_ne (ws : List Half) (m : Memory) {a b : Nat}
    (h : b < a ∨ a + 2 * ws.length ≤ b) : (m.writeHalves a ws).byte? b = m.byte? b := by
  induction ws generalizing m a with
  | nil => rfl
  | cons w ws ih =>
    simp only [List.length_cons] at h
    rw [Memory.writeHalves, ih _ (by omega), byte?_writeHalf_ne _ _ (by omega) (by omega)]

/-- The k-th cell written reads back. -/
theorem byte?_writeHalves_get (ws : List Half) (m : Memory) (a k : Nat) (h : k < ws.length) :
    (m.writeHalves a ws).byte? (a + 2 * k) = some (lowByte ws[k]) ∧
    (m.writeHalves a ws).byte? (a + 2 * k + 1) = some (highByte ws[k]) := by
  induction ws generalizing m a k with
  | nil => simp at h
  | cons w ws ih =>
    cases k with
    | zero =>
      simp only [Memory.writeHalves, Nat.mul_zero, Nat.add_zero, List.getElem_cons_zero]
      rw [byte?_writeHalves_ne _ _ (by omega), byte?_writeHalves_ne _ _ (by omega)]
      exact ⟨byte?_writeHalf_low _ _ _, byte?_writeHalf_high _ _ _⟩
    | succ k =>
      have := ih (m.writeHalf a w) (a + 2) k (by simpa using h)
      rw [show a + 2 * (k + 1) = a + 2 + 2 * k by omega]
      simpa [Memory.writeHalves] using this

/-- The two bytes of a cell make the cell (R66). -/
@[simp] theorem highByte_append_lowByte (w : Half) : highByte w ++ lowByte w = w := by
  apply BitVec.eq_of_getLsbD_eq
  intro i hi
  simp only [highByte, lowByte, BitVec.getLsbD_append, BitVec.getLsbD_extractLsb']
  by_cases h : i < 8
  · simp [h]
  · simp only [h, if_false, decide_false]
    rw [show 8 + (i - 8) = i by omega, decide_eq_true (show i - 8 < 8 by omega)]
    simp

/-- A cell written reads back (R133: "`program_16(addr, d)` then `read_16(addr) == d`"). -/
@[simp] theorem mainCell_setMainCell (s : State) (i : Nat) (w : Half) :
    (s.setMainCell i w).mainCell i = w := by
  simp [State.mainCell, State.mainByte, State.setMainCell, byte?_writeHalf_low, byte?_writeHalf_high]

/-- A cell write leaves every byte of other cells alone. -/
theorem mainByte_setMainCell_ne (s : State) {i b : Nat} (w : Half) (h : b ≠ cellAddr s.cfg i)
    (h' : b ≠ cellAddr s.cfg i + 1) : (s.setMainCell i w).mainByte b = s.mainByte b := by
  simp [State.mainByte, State.setMainCell, byte?_writeHalf_ne _ _ h h']

/-- A cell write leaves every other cell alone. -/
theorem mainCell_setMainCell_ne (s : State) {i j : Nat} (w : Half) (h : j ≠ i) :
    (s.setMainCell i w).mainCell j = s.mainCell j := by
  simp only [State.mainCell]
  rw [show (s.setMainCell i w).cfg = s.cfg from rfl]
  rw [mainByte_setMainCell_ne, mainByte_setMainCell_ne] <;> simp only [cellAddr] <;> omega

/-- The k-th cell of a run of cells written reads back. -/
theorem mainCell_setMainCells (s : State) (i k : Nat) (ws : List Half) (h : k < ws.length) :
    (s.setMainCells i ws).mainCell (i + k) = ws[k] := by
  have := byte?_writeHalves_get ws s.main (cellAddr s.cfg i) k h
  have e : cellAddr s.cfg (i + k) = cellAddr s.cfg i + 2 * k := by simp only [cellAddr]; omega
  simp [State.mainCell, State.mainByte, State.setMainCells, e, this.1, this.2]

/-- Bytes outside a run of cells written keep their value. -/
theorem mainByte_setMainCells_ne (s : State) {i b : Nat} (ws : List Half)
    (h : b < cellAddr s.cfg i ∨ cellAddr s.cfg i + 2 * ws.length ≤ b) :
    (s.setMainCells i ws).mainByte b = s.mainByte b := by
  simp [State.mainByte, State.setMainCells, byte?_writeHalves_ne _ _ h]

/-- Every memory operation keeps the canonical form. -/
theorem wf_setMainCell {s : State} (h : s.main.wf = true) (i : Nat) (w : Half) :
    (s.setMainCell i w).main.wf = true := wf_writeHalf h _ _

theorem wf_setMainCells {s : State} (h : s.main.wf = true) (i : Nat) (ws : List Half) :
    (s.setMainCells i ws).main.wf = true := wf_writeHalves ws h _

/-- The memory of the reset state has the canonical form. -/
theorem reset_main_wf : State.reset.main.wf = true := rfl

end Sys2Proof.Machine
end

