-- ==== Sys2Proof/Laws/Ops.lean ====
section
/-! SUPPORT. What each shared operation can do, said once: if it answers a state, then one of the cases
listed holds. Later proofs cite these and do not unfold the operation. -/

namespace Sys2Proof.Machine

/-! ## Register writes -/

/-- The start of R123: nothing, a page erase, or an option-block erase. -/
theorem startErase_cases {s s' : State} (h : startErase s = .ok s') :
    s' = s ∨
    (s.per = true ∧ inMain s.cfg s.addr = true ∧ s.addr.toNat % pageSize = 0 ∧
      s' = { s with pend := .erase (pageOf s.cfg s.addr), bsy := true, strt := true }) ∨
    (s.per = false ∧ s.ober = true ∧ s.obl = false ∧
      s' = { s with pend := .obErase, bsy := true, strt := true }) := by
  unfold startErase at h
  split at h
  · rename_i hp
    split at h
    · cases h
    · split at h
      · cases h
      · rename_i h1 h2
        cases h
        exact .inr (.inl ⟨hp, by simpa using h1, by simpa using h2, rfl⟩)
  · rename_i hp
    split at h
    · rename_i ho
      split at h
      · cases h; exact .inl rfl
      · rename_i hl
        cases h
        exact .inr (.inr ⟨by simpa using hp, ho, by simpa using hl, rfl⟩)
    · cases h; exact .inl rfl

/-- A CTLR write that is not a fault is made while not busy; while Locked it changes nothing; else it
writes at most one mode bit, and then locks, starts an erase, or does nothing more (R123). -/
theorem regWriteCtlr_cases {v : Word} {s s' : State} (h : regWriteCtlr v s = .ok s') :
    s.bsy = false ∧
    ((s.lock = true ∧ s' = s) ∨
     (s.lock = false ∧
      modeCount (bitOf v s.cfg.pgBit) (bitOf v s.cfg.perBit) (bitOf v s.cfg.obpgBit)
        (bitOf v s.cfg.oberBit) ≤ 1 ∧
      ∃ m, m = { s with
          pg := bitOf v s.cfg.pgBit, per := bitOf v s.cfg.perBit
          obpg := bitOf v s.cfg.obpgBit, ober := bitOf v s.cfg.oberBit } ∧
        (s' = { m with lock := true } ∨ s' = m ∨ startErase m = .ok s'))) := by
  unfold regWriteCtlr at h
  split at h
  · cases h
  · rename_i hb
    refine ⟨by simpa using hb, ?_⟩
    split at h
    · rename_i hl
      cases h
      exact .inl ⟨hl, rfl⟩
    · rename_i hl
      split at h
      · cases h
      · split at h
        · cases h
        · rename_i hc
          refine .inr ⟨by simpa using hl, by omega, _, rfl, ?_⟩
          simp only at h
          split at h
          · cases h; exact .inl rfl
          · split at h
            · exact .inr (.inr h)
            · cases h; exact .inr (.inl rfl)

/-- A CTLR write while busy faults (R123). -/
theorem regWriteCtlr_busy {v : Word} {s : State} (h : s.bsy = true) :
    regWriteCtlr v s = .error .busyWrite := by
  unfold regWriteCtlr
  rw [if_pos h]

/-- A CTLR write while Locked is ignored whole (R123, R29). -/
theorem regWriteCtlr_locked {v : Word} {s : State} (h : s.bsy = false) (hl : s.lock = true) :
    regWriteCtlr v s = .ok s := by
  unfold regWriteCtlr
  rw [if_neg (by simp [h]), if_pos hl]

/-- An undefined bit, or two mode bits, written to CTLR while unlocked (R123). -/
theorem regWriteCtlr_illegal {v : Word} {s : State} (h : s.bsy = false) (hl : s.lock = false)
    (hi : v &&& ~~~(ctlrDefined s.cfg) ≠ 0#32 ∨
      modeCount (bitOf v s.cfg.pgBit) (bitOf v s.cfg.perBit) (bitOf v s.cfg.obpgBit)
        (bitOf v s.cfg.oberBit) > 1) :
    regWriteCtlr v s = .error .illegalCtlr := by
  unfold regWriteCtlr
  rw [if_neg (by simp [h]), if_neg (by simp [hl])]
  split
  · rfl
  · rename_i hn
    rw [if_pos (hi.resolve_left hn)]

/-- A legal CTLR word written while unlocked and not busy (R123). -/
theorem regWriteCtlr_legal {v : Word} {s m : State} (h : s.bsy = false) (hl : s.lock = false)
    (hu : v &&& ~~~(ctlrDefined s.cfg) = 0#32)
    (hc : modeCount (bitOf v s.cfg.pgBit) (bitOf v s.cfg.perBit) (bitOf v s.cfg.obpgBit)
      (bitOf v s.cfg.oberBit) ≤ 1)
    (hm : m = { s with
      pg := bitOf v s.cfg.pgBit, per := bitOf v s.cfg.perBit
      obpg := bitOf v s.cfg.obpgBit, ober := bitOf v s.cfg.oberBit }) :
    regWriteCtlr v s =
      if bitOf v s.cfg.lockBit then .ok { m with lock := true }
      else if bitOf v s.cfg.strtBit then startErase m
      else .ok m := by
  have hc' : ¬(modeCount (bitOf v s.cfg.pgBit) (bitOf v s.cfg.perBit) (bitOf v s.cfg.obpgBit)
      (bitOf v s.cfg.oberBit) > 1) := by omega
  unfold regWriteCtlr
  rw [if_neg (by simp [h]), if_neg (by simp [hl]), if_neg (not_not.mpr hu), if_neg hc', hm]

/-- What a STATR write leaves alone: everything but the two flags (R121). -/
theorem regWriteStatr_frame (v : Word) (s : State) :
    regWriteStatr v s = { s with
      eop := (regWriteStatr v s).eop, wrprterr := (regWriteStatr v s).wrprterr } := rfl

/-- A main key write changes nothing but `LOCK` and `MK`, and opens the lock only from HALF by the
second key (R124). -/
theorem regWriteKeyr_cases (v : Word) (s : State) :
    regWriteKeyr v s = { s with mkFsm := (regWriteKeyr v s).mkFsm } ∨
    (s.mkFsm = .half ∧ v = s.cfg.key2 ∧ regWriteKeyr v s = { s with lock := false, mkFsm := .idle }) := by
  unfold regWriteKeyr
  split
  · exact .inl rfl
  · split <;> exact .inl rfl
  · rename_i hm
    split
    · rename_i hv
      exact .inr ⟨hm, hv, rfl⟩
    · exact .inl rfl

/-- An option key write changes nothing but `OBL` and `OK`, and opens the lock only from HALF by the
second key (R125). -/
theorem regWriteObkeyr_cases (v : Word) (s : State) :
    regWriteObkeyr v s = { s with okFsm := (regWriteObkeyr v s).okFsm } ∨
    (s.okFsm = .half ∧ v = s.cfg.obKey2 ∧
      regWriteObkeyr v s = { s with obl := false, okFsm := .idle }) := by
  unfold regWriteObkeyr
  split
  · exact .inl rfl
  · split
    · exact .inl rfl
    · split <;> exact .inl rfl
    · rename_i hm
      split
      · rename_i hv
        exact .inr ⟨hm, hv, rfl⟩
      · exact .inl rfl

/-- Under the `restart` policy no key write reaches DEAD (R31). -/
theorem regWriteKeyr_dead {v : Word} {s : State} (hp : s.cfg.keyFailPolicy = .restart)
    (h : s.mkFsm ≠ .dead) : (regWriteKeyr v s).mkFsm ≠ .dead := by
  unfold regWriteKeyr
  split
  · exact h
  · split <;> simp [keyFail, hp]
  · split <;> simp [keyFail, hp]

theorem regWriteObkeyr_dead {v : Word} {s : State} (hp : s.cfg.keyFailPolicy = .restart)
    (h : s.okFsm ≠ .dead) : (regWriteObkeyr v s).okFsm ≠ .dead := by
  unfold regWriteObkeyr
  split
  · exact h
  · split
    · exact h
    · split <;> simp [keyFail, hp]
    · split <;> simp [keyFail, hp]

/-- An ADDR write (R126). -/
theorem regWriteAddr_ok {v : Word} {s s' : State} :
    regWriteAddr v s = .ok s' ↔ s.bsy = false ∧ s' = { s with addr := v } := by
  unfold regWriteAddr
  cases s.bsy <;> simp [eq_comm]

/-! ## The read-modify-write macros on an unlocked, idle block (R137) -/

/-- A CTLR write of the present mode bits changes nothing (the bits not named "keep the value just
read", R137), for any change of one bit described by `bit` and `b`. -/
theorem regWriteCtlr_word {s : State} {v : Word} (hb : s.bsy = false) (hl : s.lock = false)
    (hu : v &&& ~~~(ctlrDefined s.cfg) = 0#32)
    (hm : modeCount (bitOf v s.cfg.pgBit) (bitOf v s.cfg.perBit) (bitOf v s.cfg.obpgBit)
      (bitOf v s.cfg.oberBit) ≤ 1) (hk : bitOf v s.cfg.lockBit = false)
    (hs : bitOf v s.cfg.strtBit = false) :
    regWriteCtlr v s = .ok { s with
      pg := bitOf v s.cfg.pgBit, per := bitOf v s.cfg.perBit
      obpg := bitOf v s.cfg.obpgBit, ober := bitOf v s.cfg.oberBit } := by
  have hm' : ¬(modeCount (bitOf v s.cfg.pgBit) (bitOf v s.cfg.perBit) (bitOf v s.cfg.obpgBit)
      (bitOf v s.cfg.oberBit) > 1) := by omega
  unfold regWriteCtlr
  rw [if_neg (by simp [hb]), if_neg (by simp [hl]), if_neg (by simp [hu]), if_neg hm']
  simp only [hk, hs, Bool.false_eq_true, if_false]

/-- Setting or clearing defined bits of the CTLR word leaves no undefined bit. -/
theorem ctlrWord_set_undefined (s : State) {bit : Nat} (h : bit ∈ s.cfg.ctlrBits) :
    (ctlrWord s ||| maskOf bit) &&& ~~~(ctlrDefined s.cfg) = 0#32 := by
  apply word_ext
  intro j hj
  have h0 := congrArg (fun w => bitOf w j) (ctlrWord_undefined s)
  simp only [bitOf_and, bitOf_not, bitOf_ctlrDefined, hj, decide_true, Bool.true_and, bitOf_zero,
    bitOf_or, bitOf_maskOf] at h0 ⊢
  by_cases e : j = bit
  · subst e; simp [h]
  · simpa [e] using h0

theorem ctlrWord_clr_undefined (s : State) (bit : Nat) :
    (ctlrWord s &&& ~~~(maskOf bit)) &&& ~~~(ctlrDefined s.cfg) = 0#32 := by
  rw [BitVec.and_assoc, BitVec.and_comm (~~~(maskOf bit)), ← BitVec.and_assoc, ctlrWord_undefined]
  simp

/-- `CtlrSet(M_PG)` on an idle block with no other mode bit set. -/
theorem ctlrSet_pg {s : State} (hc : s.cfg.Ok) (hb : s.bsy = false) (hl : s.lock = false)
    (hs : s.strt = false) (h2 : s.per = false) (h3 : s.obpg = false) (h4 : s.ober = false) (k n : Nat) :
    ctlrSet Config.pgBit k n s = .ok { s with pg := true } := by
  obtain ⟨b1, b2, b3, b4, b5, b6⟩ := bitOf_ctlrWord hc
  obtain ⟨⟨a1, a2, a3, a4, a5⟩, ⟨c1, c2, c3, c4⟩, ⟨d1, d2, d3⟩, ⟨e1, e2⟩, f1⟩ := config_ctlr_ne hc
  obtain ⟨l1, l2, l3, l4, l5, l6⟩ := config_ctlr_lt hc
  simp only [ctlrSet, actOrFault, regReadCtlr]
  rw [regWriteCtlr_word hb hl (ctlrWord_set_undefined s (by simp [Config.ctlrBits]))]
  all_goals simp [b1, b2, b3, b4, b5, b6, a1.symm, a2.symm, a3.symm, a4.symm, a5.symm, l1, hl, hs, h2,
    h3, h4, modeCount]

/-- `CtlrSet(M_PER)` on an idle block with no other mode bit set. -/
theorem ctlrSet_per {s : State} (hc : s.cfg.Ok) (hb : s.bsy = false) (hl : s.lock = false)
    (hs : s.strt = false) (h1 : s.pg = false) (h3 : s.obpg = false) (h4 : s.ober = false) (k n : Nat) :
    ctlrSet Config.perBit k n s = .ok { s with per := true } := by
  obtain ⟨b1, b2, b3, b4, b5, b6⟩ := bitOf_ctlrWord hc
  obtain ⟨⟨a1, a2, a3, a4, a5⟩, ⟨c1, c2, c3, c4⟩, ⟨d1, d2, d3⟩, ⟨e1, e2⟩, f1⟩ := config_ctlr_ne hc
  obtain ⟨l1, l2, l3, l4, l5, l6⟩ := config_ctlr_lt hc
  simp only [ctlrSet, actOrFault, regReadCtlr]
  rw [regWriteCtlr_word hb hl (ctlrWord_set_undefined s (by simp [Config.ctlrBits]))]
  all_goals simp [b1, b2, b3, b4, b5, b6, a1, c1.symm, c2.symm, c3.symm, c4.symm, l2, hl, hs, h1,
    h3, h4, modeCount]

/-- `CtlrSet(M_OBER)` on an idle block with no other mode bit set. -/
theorem ctlrSet_ober {s : State} (hc : s.cfg.Ok) (hb : s.bsy = false) (hl : s.lock = false)
    (hs : s.strt = false) (h1 : s.pg = false) (h2 : s.per = false) (h3 : s.obpg = false) (k n : Nat) :
    ctlrSet Config.oberBit k n s = .ok { s with ober := true } := by
  obtain ⟨b1, b2, b3, b4, b5, b6⟩ := bitOf_ctlrWord hc
  obtain ⟨⟨a1, a2, a3, a4, a5⟩, ⟨c1, c2, c3, c4⟩, ⟨d1, d2, d3⟩, ⟨e1, e2⟩, f1⟩ := config_ctlr_ne hc
  obtain ⟨l1, l2, l3, l4, l5, l6⟩ := config_ctlr_lt hc
  simp only [ctlrSet, actOrFault, regReadCtlr]
  rw [regWriteCtlr_word hb hl (ctlrWord_set_undefined s (by simp [Config.ctlrBits]))]
  all_goals simp [b1, b2, b3, b4, b5, b6, a3, c2, d1, e1.symm, e2.symm, l4, hl, hs, h1, h2, h3,
    modeCount]

/-- `CtlrSet(M_OBPG)` on an idle block with no other mode bit set. -/
theorem ctlrSet_obpg {s : State} (hc : s.cfg.Ok) (hb : s.bsy = false) (hl : s.lock = false)
    (hs : s.strt = false) (h1 : s.pg = false) (h2 : s.per = false) (h4 : s.ober = false) (k n : Nat) :
    ctlrSet Config.obpgBit k n s = .ok { s with obpg := true } := by
  obtain ⟨b1, b2, b3, b4, b5, b6⟩ := bitOf_ctlrWord hc
  obtain ⟨⟨a1, a2, a3, a4, a5⟩, ⟨c1, c2, c3, c4⟩, ⟨d1, d2, d3⟩, ⟨e1, e2⟩, f1⟩ := config_ctlr_ne hc
  obtain ⟨l1, l2, l3, l4, l5, l6⟩ := config_ctlr_lt hc
  simp only [ctlrSet, actOrFault, regReadCtlr]
  rw [regWriteCtlr_word hb hl (ctlrWord_set_undefined s (by simp [Config.ctlrBits]))]
  all_goals simp [b1, b2, b3, b4, b5, b6, a2, c1, d1.symm, d2.symm, d3.symm, l3, hl, hs, h1, h2, h4,
    modeCount]

/-- `CtlrSet(M_STRT)` on an idle, unlocked block: the start of R123 with the mode bits as they stand. -/
theorem ctlrSet_strt {s : State} (hc : s.cfg.Ok) (hb : s.bsy = false) (hl : s.lock = false)
    (hm : s.OneMode) (k n : Nat) : ctlrSet Config.strtBit k n s = startErase s := by
  obtain ⟨b1, b2, b3, b4, b5, b6⟩ := bitOf_ctlrWord hc
  obtain ⟨⟨a1, a2, a3, a4, a5⟩, ⟨c1, c2, c3, c4⟩, ⟨d1, d2, d3⟩, ⟨e1, e2⟩, f1⟩ := config_ctlr_ne hc
  obtain ⟨l1, l2, l3, l4, l5, l6⟩ := config_ctlr_lt hc
  have hm' : ¬(modeCount s.pg s.per s.obpg s.ober > 1) := by
    have : modeCount s.pg s.per s.obpg s.ober ≤ 1 := hm
    omega
  have hu := ctlrWord_set_undefined s
    (show s.cfg.strtBit ∈ s.cfg.ctlrBits by simp [Config.ctlrBits])
  have hu' : ¬((ctlrWord s ||| maskOf s.cfg.strtBit) &&& ~~~(ctlrDefined s.cfg) ≠ 0#32) :=
    not_not.mpr hu
  show regWriteCtlr (ctlrWord s ||| maskOf s.cfg.strtBit) s = startErase s
  unfold regWriteCtlr
  rw [if_neg (by simp [hb]), if_neg (by simp [hl]), if_neg hu']
  simp only [bitOf_or, bitOf_maskOf, b1, b2, b3, b4, b5, b6, a4, c3, d2, e1, f1.symm, l5,
    decide_false, decide_true, Bool.or_false, Bool.or_true, Bool.and_false,
    Bool.true_and, if_neg hm', if_true]
  rw [if_neg (by simp [hl])]

/-- `CtlrSet(M_LOCK)` on an idle block (R157). -/
theorem ctlrSet_lock {s : State} (hc : s.cfg.Ok) (hb : s.bsy = false) (hm : s.OneMode) (k n : Nat) :
    ctlrSet Config.lockBit k n s = .ok { s with lock := true } := by
  obtain ⟨b1, b2, b3, b4, b5, b6⟩ := bitOf_ctlrWord hc
  obtain ⟨⟨a1, a2, a3, a4, a5⟩, ⟨c1, c2, c3, c4⟩, ⟨d1, d2, d3⟩, ⟨e1, e2⟩, f1⟩ := config_ctlr_ne hc
  obtain ⟨l1, l2, l3, l4, l5, l6⟩ := config_ctlr_lt hc
  simp only [ctlrSet, actOrFault, regReadCtlr, regWriteCtlr, hb,
    ctlrWord_set_undefined s (show s.cfg.lockBit ∈ s.cfg.ctlrBits by simp [Config.ctlrBits])]
  simp only [bitOf_or, bitOf_maskOf, b1, b2, b3, b4, b5, b6, a5, c4, d3, e2, f1, l6]
  by_cases hl : s.lock = true
  · simp [hl]
    cases s; simp_all
  · simp [hl, if_neg (show ¬(modeCount s.pg s.per s.obpg s.ober > 1) by have := hm; omega)]

/-- `CtlrClr` of a mode bit on an idle, unlocked block with no start bit (R137). -/
theorem ctlrClr_mode {s : State} (hc : s.cfg.Ok) (hb : s.bsy = false) (hl : s.lock = false)
    (hs : s.strt = false) (hm : s.OneMode) (k n : Nat) :
    ctlrClr Config.pgBit k n s = .ok { s with pg := false } ∧
    ctlrClr Config.perBit k n s = .ok { s with per := false } ∧
    ctlrClr Config.obpgBit k n s = .ok { s with obpg := false } ∧
    ctlrClr Config.oberBit k n s = .ok { s with ober := false } := by
  obtain ⟨b1, b2, b3, b4, b5, b6⟩ := bitOf_ctlrWord hc
  obtain ⟨⟨a1, a2, a3, a4, a5⟩, ⟨c1, c2, c3, c4⟩, ⟨d1, d2, d3⟩, ⟨e1, e2⟩, f1⟩ := config_ctlr_ne hc
  obtain ⟨l1, l2, l3, l4, l5, l6⟩ := config_ctlr_lt hc
  have hm' : modeCount s.pg s.per s.obpg s.ober ≤ 1 := hm
  refine ⟨?_, ?_, ?_, ?_⟩ <;> simp only [ctlrClr, actOrFault, regReadCtlr] <;>
    rw [regWriteCtlr_word hb hl (ctlrWord_clr_undefined s _)] <;>
    simp_all [modeCount, Ne.symm] <;>
    cases h1 : s.pg <;> cases h2 : s.per <;> cases h3 : s.obpg <;> cases h4 : s.ober <;> simp_all

/-! ## Cell reads and stores -/

/-- A read of a main cell changes at most the count of draws. -/
theorem readMain_state (i : Nat) (s : State) : (readMain i s).2 = s ∨ (readMain i s).2 = s.drawn 1 := by
  unfold readMain
  split
  · exact .inr rfl
  · exact .inl rfl

theorem memRead8_cases {a : Word} {s s' : State} {v : Byte} (h : memRead8 a s = .ok (v, s')) :
    inMain s.cfg a = true ∧ (s' = s ∨ s' = s.drawn 1) := by
  unfold memRead8 at h
  split at h
  · cases h
  · rename_i hi
    refine ⟨by simpa using hi, ?_⟩
    cases h
    exact readMain_state _ _

theorem memRead16_cases {a : Word} {s s' : State} {v : Half} (h : memRead16 a s = .ok (v, s')) :
    inMain s.cfg a = true ∧ bitOf a 0 = false ∧ (s' = s ∨ s' = s.drawn 1) := by
  unfold memRead16 at h
  split at h
  · cases h
  · split at h
    · cases h
    · rename_i hi ha
      refine ⟨by simpa using hi, by simpa using ha, ?_⟩
      have := readMain_state (mainCellOf s.cfg a) s
      rw [Except.ok.injEq] at h
      rw [h] at this
      exact this

/-- A store to main flash that is not a fault is dropped, or accepted as a pending program (R129). -/
theorem memWrite16_cases {a : Word} {v : Half} {s s' : State} (h : memWrite16 a v s = .ok s') :
    inMain s.cfg a = true ∧ bitOf a 0 = false ∧ s.bsy = false ∧
    (((s.lock = true ∨ s.pg = false) ∧ s' = s) ∨
     (s.lock = false ∧ s.pg = true ∧
      s' = { s with pend := .prog (mainCellOf s.cfg a) v, bsy := true })) := by
  unfold memWrite16 at h
  split at h
  · cases h
  · split at h
    · cases h
    · split at h
      · cases h
      · rename_i h1 h2 h3
        refine ⟨by simpa using h1, by simpa using h2, by simpa using h3, ?_⟩
        split at h
        · rename_i hd
          cases h
          exact .inl ⟨by simpa using hd, rfl⟩
        · rename_i hd
          cases h
          simp only [Bool.or_eq_true, Bool.not_eq_true', not_or, Bool.not_eq_false,
            Bool.not_eq_true] at hd
          exact .inr ⟨hd.1, hd.2, rfl⟩

/-- A read of an option cell changes at most the count of draws. -/
theorem readOb_state (c : CellId) (s : State) : (readOb c s).2 = s ∨ (readOb c s).2 = s.drawn 1 := by
  unfold readOb
  split
  · exact .inr rfl
  · exact .inl rfl

/-- With nothing pending an option cell reads as stored. -/
theorem readOb_rested {s : State} (h : s.pend = .none) (c : CellId) : readOb c s = (s.ob.cell c, s) := by
  simp [readOb, obAffected, h]

/-- With nothing pending a main cell reads as stored. -/
theorem readMain_rested {s : State} (h : s.pend = .none) (i : Nat) :
    readMain i s = (s.mainCell i, s) := by
  simp [readMain, affected, h]

/-- A store to an option cell that is not a fault is dropped, or accepted as a pending program (R131). -/
theorem writeOb_cases {c : CellId} {v : Half} {s s' : State} (h : writeOb c v s = .ok s') :
    s.bsy = false ∧
    (((s.lock = true ∨ s.obl = true ∨ s.obpg = false) ∧ s' = s) ∨
     (s.lock = false ∧ s.obl = false ∧ s.obpg = true ∧
      s' = { s with pend := .obProg c v, bsy := true })) := by
  unfold writeOb at h
  split at h
  · cases h
  · rename_i hb
    refine ⟨by simpa using hb, ?_⟩
    split at h
    · rename_i hd
      cases h
      refine .inl ⟨?_, rfl⟩
      simpa [or_assoc] using hd
    · rename_i hd
      cases h
      simp only [Bool.or_eq_true, Bool.not_eq_true', not_or, Bool.not_eq_false,
        Bool.not_eq_true] at hd
      exact .inr ⟨hd.1.1, hd.1.2, hd.2, rfl⟩

/-! ## Address arithmetic -/

/-- The low byte of the cell at an even address stands at that address (R66). -/
theorem cellAddr_mainCellOf {c : Config} {a : Word} (hc : c.Ok) (hi : inMain c a = true)
    (ha : bitOf a 0 = false) : cellAddr c (mainCellOf c a) = a.toNat := by
  have hb := hc.base_page
  have ha' : a.toNat % 2 = 0 := by
    simp [bitOf, BitVec.getLsbD, Nat.testBit_zero] at ha
    omega
  simp [inMain] at hi
  simp only [pageSize] at hb
  simp only [cellAddr, mainCellOf]
  omega

/-- A page starts at its page-aligned address (R61). -/
theorem cellAddr_page {c : Config} {a : Word} (hc : c.Ok) (hi : inMain c a = true)
    (ha : a.toNat % 64 = 0) : cellAddr c (pageCells * pageOf c a) = a.toNat := by
  have hb := hc.base_page
  simp [inMain] at hi
  simp only [pageSize] at hb
  simp only [cellAddr, pageOf, pageCells, pageSize]
  omega

/-- The page of a cell is the page of its address. -/
theorem pageOfCell_mainCellOf (c : Config) (a : Word) : pageOfCell (mainCellOf c a) = pageOf c a := by
  simp only [pageOfCell, mainCellOf, pageOf, pageCells, pageSize, Nat.div_div_eq_div_mul]

/-! ## The engine and RESET -/

/-- ENG changes nothing but the cells, two flags, `STRT`, `PEND`, `BSY` and the count of draws (R136:
"ENG never changes `LOCK`, `OBL`, the mode bits, `ADDR` or the key FSMs"). -/
theorem engStep_frame (s : State) :
    engStep s = { s with
      main := (engStep s).main, ob := (engStep s).ob, eop := (engStep s).eop
      wrprterr := (engStep s).wrprterr, strt := (engStep s).strt, pend := (engStep s).pend
      bsy := (engStep s).bsy, draws := (engStep s).draws } := by
  unfold engStep
  split
  · rfl
  · simp only [completeErase, State.setMainCells]
    generalize Memory.writeHalves _ _ _ = m
    split <;> rfl
  · simp only [completeProg, State.setMainCell, State.drawn]
    generalize Memory.writeHalf _ _ _ = m
    generalize Memory.writeHalf _ _ _ = m'
    split
    · rfl
    · split <;> rfl
  · rfl
  · simp only [completeObProg, State.drawn]
    split <;> rfl

/-- After ENG's step nothing is pending (R136). -/
@[simp] theorem engStep_pend (s : State) : (engStep s).pend = .none := by
  unfold engStep
  split
  · assumption
  all_goals rfl

/-- ENG's step does nothing when nothing is pending (R136). -/
theorem engStep_none {s : State} (h : s.pend = .none) : engStep s = s := by
  simp [engStep, h]

/-- ENG's completion clears `BSY` and `STRT` (R136). -/
theorem engStep_idle {s : State} (h : s.pend ≠ .none) :
    (engStep s).bsy = false ∧ (engStep s).strt = false := by
  unfold engStep
  split
  · contradiction
  all_goals exact ⟨rfl, rfl⟩

/-- `Spoil` changes nothing but the cells and the count of draws (R242). -/
theorem spoil_frame (s : State) :
    spoil s = { s with main := (spoil s).main, ob := (spoil s).ob, draws := (spoil s).draws } := by
  unfold spoil
  split
  · rfl
  · simp only [State.setMainCells, State.drawn]
  · simp only [State.setMainCell, State.drawn]
  · simp only [State.drawn]
  · simp only [State.drawn]

/-- With nothing pending `Spoil` does nothing (R242). -/
theorem spoil_none {s : State} (h : s.pend = .none) : spoil s = s := by simp [spoil, h]

/-- Main flash and the option cells after RESET are what `Spoil` left (R241, R243). -/
@[simp] theorem resetStep_main (s : State) : (resetStep s).main = (spoil s).main := rfl
@[simp] theorem resetStep_ob (s : State) : (resetStep s).ob = (spoil s).ob := rfl

end Sys2Proof.Machine
end

