-- ==== Sys2Proof/Laws/PerInstr.lean ====
section
/-! SUPPORT. What holds of every command as syntax, one lemma per constructor: the command is the one its
name and operands make, its opcode names it, and its canonical form (R92) uses no bit it does not read. -/

namespace Sys2Proof.Laws

/-- Every bit a masked operand keeps is one the mask has. -/
theorem Rebuilt.masked (v m : Word) : (v &&& m) &&& ~~~m = 0#32 := by
  rw [BitVec.and_assoc]
  simp

/-- A command rebuilt from its parts. -/
def Rebuilt.Statement (i : Instr) : Prop :=
  i.op.instr i.a i.d = i ∧ Op.ofCode i.op.code = some i.op ∧ i.canonical.op = i.op ∧
  i.canonical.UnusedZero

theorem Rebuilt.rdStatr (a d : Word) : Rebuilt.Statement (.rdStatr a d) :=
  ⟨rfl, rfl, rfl, Rebuilt.masked _ _, Rebuilt.masked _ _⟩

theorem Rebuilt.wrStatr (a d : Word) : Rebuilt.Statement (.wrStatr a d) :=
  ⟨rfl, rfl, rfl, Rebuilt.masked _ _, Rebuilt.masked _ _⟩

theorem Rebuilt.rdCtlr (a d : Word) : Rebuilt.Statement (.rdCtlr a d) :=
  ⟨rfl, rfl, rfl, Rebuilt.masked _ _, Rebuilt.masked _ _⟩

theorem Rebuilt.wrCtlr (a d : Word) : Rebuilt.Statement (.wrCtlr a d) :=
  ⟨rfl, rfl, rfl, Rebuilt.masked _ _, Rebuilt.masked _ _⟩

theorem Rebuilt.wrKeyr (a d : Word) : Rebuilt.Statement (.wrKeyr a d) :=
  ⟨rfl, rfl, rfl, Rebuilt.masked _ _, Rebuilt.masked _ _⟩

theorem Rebuilt.wrObkeyr (a d : Word) : Rebuilt.Statement (.wrObkeyr a d) :=
  ⟨rfl, rfl, rfl, Rebuilt.masked _ _, Rebuilt.masked _ _⟩

theorem Rebuilt.wrAddr (a d : Word) : Rebuilt.Statement (.wrAddr a d) :=
  ⟨rfl, rfl, rfl, Rebuilt.masked _ _, Rebuilt.masked _ _⟩

theorem Rebuilt.ld8 (a d : Word) : Rebuilt.Statement (.ld8 a d) :=
  ⟨rfl, rfl, rfl, Rebuilt.masked _ _, Rebuilt.masked _ _⟩

theorem Rebuilt.ld16 (a d : Word) : Rebuilt.Statement (.ld16 a d) :=
  ⟨rfl, rfl, rfl, Rebuilt.masked _ _, Rebuilt.masked _ _⟩

theorem Rebuilt.st16 (a d : Word) : Rebuilt.Statement (.st16 a d) :=
  ⟨rfl, rfl, rfl, Rebuilt.masked _ _, Rebuilt.masked _ _⟩

theorem Rebuilt.ldob (a d : Word) : Rebuilt.Statement (.ldob a d) :=
  ⟨rfl, rfl, rfl, Rebuilt.masked _ _, Rebuilt.masked _ _⟩

theorem Rebuilt.stob (a d : Word) : Rebuilt.Statement (.stob a d) :=
  ⟨rfl, rfl, rfl, Rebuilt.masked _ _, Rebuilt.masked _ _⟩

theorem Rebuilt.calcAddr (a d : Word) : Rebuilt.Statement (.calcAddr a d) :=
  ⟨rfl, rfl, rfl, Rebuilt.masked _ _, Rebuilt.masked _ _⟩

theorem Rebuilt.unlock (a d : Word) : Rebuilt.Statement (.unlock a d) :=
  ⟨rfl, rfl, rfl, Rebuilt.masked _ _, Rebuilt.masked _ _⟩

theorem Rebuilt.unlockOb (a d : Word) : Rebuilt.Statement (.unlockOb a d) :=
  ⟨rfl, rfl, rfl, Rebuilt.masked _ _, Rebuilt.masked _ _⟩

theorem Rebuilt.lock (a d : Word) : Rebuilt.Statement (.lock a d) :=
  ⟨rfl, rfl, rfl, Rebuilt.masked _ _, Rebuilt.masked _ _⟩

theorem Rebuilt.isBusy (a d : Word) : Rebuilt.Statement (.isBusy a d) :=
  ⟨rfl, rfl, rfl, Rebuilt.masked _ _, Rebuilt.masked _ _⟩

theorem Rebuilt.isDone (a d : Word) : Rebuilt.Statement (.isDone a d) :=
  ⟨rfl, rfl, rfl, Rebuilt.masked _ _, Rebuilt.masked _ _⟩

theorem Rebuilt.isWperr (a d : Word) : Rebuilt.Statement (.isWperr a d) :=
  ⟨rfl, rfl, rfl, Rebuilt.masked _ _, Rebuilt.masked _ _⟩

theorem Rebuilt.clearDone (a d : Word) : Rebuilt.Statement (.clearDone a d) :=
  ⟨rfl, rfl, rfl, Rebuilt.masked _ _, Rebuilt.masked _ _⟩

theorem Rebuilt.waitNotBusy (a d : Word) : Rebuilt.Statement (.waitNotBusy a d) :=
  ⟨rfl, rfl, rfl, Rebuilt.masked _ _, Rebuilt.masked _ _⟩

theorem Rebuilt.waitDone (a d : Word) : Rebuilt.Statement (.waitDone a d) :=
  ⟨rfl, rfl, rfl, Rebuilt.masked _ _, Rebuilt.masked _ _⟩

theorem Rebuilt.erasePage (a d : Word) : Rebuilt.Statement (.erasePage a d) :=
  ⟨rfl, rfl, rfl, Rebuilt.masked _ _, Rebuilt.masked _ _⟩

theorem Rebuilt.program16 (a d : Word) : Rebuilt.Statement (.program16 a d) :=
  ⟨rfl, rfl, rfl, Rebuilt.masked _ _, Rebuilt.masked _ _⟩

theorem Rebuilt.program8x2 (a d : Word) : Rebuilt.Statement (.program8x2 a d) :=
  ⟨rfl, rfl, rfl, Rebuilt.masked _ _, Rebuilt.masked _ _⟩

theorem Rebuilt.programFloat (a d : Word) : Rebuilt.Statement (.programFloat a d) :=
  ⟨rfl, rfl, rfl, Rebuilt.masked _ _, Rebuilt.masked _ _⟩

theorem Rebuilt.read16 (a d : Word) : Rebuilt.Statement (.read16 a d) :=
  ⟨rfl, rfl, rfl, Rebuilt.masked _ _, Rebuilt.masked _ _⟩

theorem Rebuilt.read8 (a d : Word) : Rebuilt.Statement (.read8 a d) :=
  ⟨rfl, rfl, rfl, Rebuilt.masked _ _, Rebuilt.masked _ _⟩

theorem Rebuilt.readFloat (a d : Word) : Rebuilt.Statement (.readFloat a d) :=
  ⟨rfl, rfl, rfl, Rebuilt.masked _ _, Rebuilt.masked _ _⟩

theorem Rebuilt.decodeCell (a d : Word) : Rebuilt.Statement (.decodeCell a d) :=
  ⟨rfl, rfl, rfl, Rebuilt.masked _ _, Rebuilt.masked _ _⟩

theorem Rebuilt.encodeCell (a d : Word) : Rebuilt.Statement (.encodeCell a d) :=
  ⟨rfl, rfl, rfl, Rebuilt.masked _ _, Rebuilt.masked _ _⟩

theorem Rebuilt.readUser (a d : Word) : Rebuilt.Statement (.readUser a d) :=
  ⟨rfl, rfl, rfl, Rebuilt.masked _ _, Rebuilt.masked _ _⟩

theorem Rebuilt.readRdpr (a d : Word) : Rebuilt.Statement (.readRdpr a d) :=
  ⟨rfl, rfl, rfl, Rebuilt.masked _ _, Rebuilt.masked _ _⟩

theorem Rebuilt.readWrpr1 (a d : Word) : Rebuilt.Statement (.readWrpr1 a d) :=
  ⟨rfl, rfl, rfl, Rebuilt.masked _ _, Rebuilt.masked _ _⟩

theorem Rebuilt.readWrpr0 (a d : Word) : Rebuilt.Statement (.readWrpr0 a d) :=
  ⟨rfl, rfl, rfl, Rebuilt.masked _ _, Rebuilt.masked _ _⟩

theorem Rebuilt.readData1 (a d : Word) : Rebuilt.Statement (.readData1 a d) :=
  ⟨rfl, rfl, rfl, Rebuilt.masked _ _, Rebuilt.masked _ _⟩

theorem Rebuilt.readData0 (a d : Word) : Rebuilt.Statement (.readData0 a d) :=
  ⟨rfl, rfl, rfl, Rebuilt.masked _ _, Rebuilt.masked _ _⟩

theorem Rebuilt.readData16 (a d : Word) : Rebuilt.Statement (.readData16 a d) :=
  ⟨rfl, rfl, rfl, Rebuilt.masked _ _, Rebuilt.masked _ _⟩

theorem Rebuilt.writeOb16 (a d : Word) : Rebuilt.Statement (.writeOb16 a d) :=
  ⟨rfl, rfl, rfl, Rebuilt.masked _ _, Rebuilt.masked _ _⟩

theorem Rebuilt.writeOb8x2 (a d : Word) : Rebuilt.Statement (.writeOb8x2 a d) :=
  ⟨rfl, rfl, rfl, Rebuilt.masked _ _, Rebuilt.masked _ _⟩

/-- The statement for every command. -/
theorem Rebuilt.all (i : Instr) : Rebuilt.Statement i := by
  cases i with
  | rdStatr a d => exact Rebuilt.rdStatr a d
  | wrStatr a d => exact Rebuilt.wrStatr a d
  | rdCtlr a d => exact Rebuilt.rdCtlr a d
  | wrCtlr a d => exact Rebuilt.wrCtlr a d
  | wrKeyr a d => exact Rebuilt.wrKeyr a d
  | wrObkeyr a d => exact Rebuilt.wrObkeyr a d
  | wrAddr a d => exact Rebuilt.wrAddr a d
  | ld8 a d => exact Rebuilt.ld8 a d
  | ld16 a d => exact Rebuilt.ld16 a d
  | st16 a d => exact Rebuilt.st16 a d
  | ldob a d => exact Rebuilt.ldob a d
  | stob a d => exact Rebuilt.stob a d
  | calcAddr a d => exact Rebuilt.calcAddr a d
  | unlock a d => exact Rebuilt.unlock a d
  | unlockOb a d => exact Rebuilt.unlockOb a d
  | lock a d => exact Rebuilt.lock a d
  | isBusy a d => exact Rebuilt.isBusy a d
  | isDone a d => exact Rebuilt.isDone a d
  | isWperr a d => exact Rebuilt.isWperr a d
  | clearDone a d => exact Rebuilt.clearDone a d
  | waitNotBusy a d => exact Rebuilt.waitNotBusy a d
  | waitDone a d => exact Rebuilt.waitDone a d
  | erasePage a d => exact Rebuilt.erasePage a d
  | program16 a d => exact Rebuilt.program16 a d
  | program8x2 a d => exact Rebuilt.program8x2 a d
  | programFloat a d => exact Rebuilt.programFloat a d
  | read16 a d => exact Rebuilt.read16 a d
  | read8 a d => exact Rebuilt.read8 a d
  | readFloat a d => exact Rebuilt.readFloat a d
  | decodeCell a d => exact Rebuilt.decodeCell a d
  | encodeCell a d => exact Rebuilt.encodeCell a d
  | readUser a d => exact Rebuilt.readUser a d
  | readRdpr a d => exact Rebuilt.readRdpr a d
  | readWrpr1 a d => exact Rebuilt.readWrpr1 a d
  | readWrpr0 a d => exact Rebuilt.readWrpr0 a d
  | readData1 a d => exact Rebuilt.readData1 a d
  | readData0 a d => exact Rebuilt.readData0 a d
  | readData16 a d => exact Rebuilt.readData16 a d
  | writeOb16 a d => exact Rebuilt.writeOb16 a d
  | writeOb8x2 a d => exact Rebuilt.writeOb8x2 a d

end Sys2Proof.Laws
end

