-- ==== Sys2Proof/Laws/Sequencer.lean ====
section
/-! SUPPORT. How a command runs: one turn of each agent, and the shortcuts for commands of one
micro-step and for runs with no order imposed. Proofs about a command cite these and do not unfold
`drive` or `runCommand`. -/

namespace Sys2Proof.Machine

/-! ## Whose turn it is -/

/-- SEQ first: no order is left, or it names SEQ. -/
theorem seqFirst_cases {s : State} (h : s.SeqFirst) : s.turns = [] ∨ ∃ ts, s.turns = .seq :: ts := by
  obtain ⟨h1, h2⟩ := h
  cases ht : s.turns with
  | nil => exact .inl rfl
  | cons g ts => cases g <;> simp_all

theorem calm_seqFirst {s : State} (h : s.Calm) : s.SeqFirst := by
  have h' : s.turns = [] := h
  simp only [State.SeqFirst, h', List.head?_nil, ne_eq, reduceCtorEq, not_false_eq_true, and_self]

/-! ## SEQ's step -/

/-- SEQ's step when there is a micro-step and it faults. -/
theorem seqStep_fault {op : Op} {prog : List MicroStep} {s : State} {m : MicroStep} {f : Fault}
    (hm : prog[s.spc]? = some m) (h : m s.spc prog.length { s with spc := s.spc + 1 } = .error f) :
    seqStep op prog s = .error f := by
  simp only [seqStep, hm, h]

/-- SEQ's step when its micro-step leaves `SPC` short of END. -/
theorem seqStep_more {op : Op} {prog : List MicroStep} {s s' : State} {m : MicroStep}
    (hm : prog[s.spc]? = some m) (h : m s.spc prog.length { s with spc := s.spc + 1 } = .ok s')
    (hl : s'.spc < prog.length) : seqStep op prog s = .ok s' := by
  simp only [seqStep, hm, h, if_neg (Nat.not_le.mpr hl)]

/-- SEQ's step when its micro-step reaches END. -/
theorem seqStep_last {op : Op} {prog : List MicroStep} {s s' : State} {m : MicroStep}
    (hm : prog[s.spc]? = some m) (h : m s.spc prog.length { s with spc := s.spc + 1 } = .ok s')
    (hl : prog.length ≤ s'.spc) : seqStep op prog s = .ok (s'.finish op) := by
  simp only [seqStep, hm, h, if_pos hl]

/-- All that SEQ's step can do, when it does not fault: end a command whose `SPC` stands at END, or
run the micro-step at `SPC` and then end the command or not (R138 (2)). -/
theorem seqStep_cases {op : Op} {prog : List MicroStep} {s t : State} (h : seqStep op prog s = .ok t) :
    (prog[s.spc]? = none ∧ t = s.finish op) ∨
    ∃ m s', prog[s.spc]? = some m ∧ m s.spc prog.length { s with spc := s.spc + 1 } = .ok s' ∧
      ((prog.length ≤ s'.spc ∧ t = s'.finish op) ∨ (s'.spc < prog.length ∧ t = s')) := by
  unfold seqStep at h
  split at h
  · rename_i hn
    cases h
    exact .inl ⟨hn, rfl⟩
  · rename_i m hm
    split at h
    · cases h
    · rename_i s' hs'
      refine .inr ⟨m, s', hm, hs', ?_⟩
      split at h
      · rename_i hl
        cases h
        exact .inl ⟨hl, rfl⟩
      · rename_i hl
        cases h
        exact .inr ⟨by omega, rfl⟩

/-! ## One turn of each agent in the run of a command -/

@[simp] theorem outcome_stands (s : State) : (RunEnd.stands s).outcome = .next s := rfl
@[simp] theorem outcome_faulted (f : Fault) (s : State) : (RunEnd.faulted f s).outcome = .fault f := rfl
@[simp] theorem state_stands (s : State) : (RunEnd.stands s).state = s := rfl
@[simp] theorem state_faulted (f : Fault) (s : State) : (RunEnd.faulted f s).state = s := rfl

theorem drive_eng_turn {op : Op} {prog : List MicroStep} {n : Nat} {s : State} {ts : List Agent}
    (h : s.turns = .eng :: ts) :
    drive op prog (n + 1) s = drive op prog n (engStep { s with turns := ts }) := by
  simp only [drive, runTo, h]

theorem drive_reset_turn {op : Op} {prog : List MicroStep} {n : Nat} {s : State} {ts : List Agent}
    {rest : List HostAction} (h : s.turns = .host :: ts) (hh : s.host = .reset :: rest) :
    drive op prog (n + 1) s = .next (resetStep { s with turns := ts, host := rest }) := by
  simp only [drive, runTo, outcome_stands, h, hh]

theorem drive_idle_turn {op : Op} {prog : List MicroStep} {n : Nat} {s : State} {ts : List Agent}
    (h : s.turns = .host :: ts) (hh : s.host.head? ≠ some .reset) :
    drive op prog (n + 1) s = drive op prog n { s with turns := ts } := by
  simp only [drive, runTo, h]
  split
  · rename_i hr
    simp [hr] at hh
  · rfl

theorem drive_seq_fault {op : Op} {prog : List MicroStep} {n : Nat} {s : State} {f : Fault}
    (hs : s.SeqFirst) (h : seqStep op prog { s with turns := s.turns.tail } = .error f) :
    drive op prog (n + 1) s = .fault f := by
  rcases seqFirst_cases hs with ht | ⟨ts, ht⟩
  · have he : ({ s with turns := s.turns.tail } : State) = s := by rw [ht]; cases s; simp_all
    rw [he] at h
    simp only [drive, runTo, outcome_faulted, ht, h]
  · simp only [ht, List.tail_cons] at h
    simp only [drive, runTo, outcome_faulted, ht, h]

/-- SEQ's last turn of a command. -/
theorem drive_seq_last {op : Op} {prog : List MicroStep} {n : Nat} {s t : State}
    (hs : s.SeqFirst) (h : seqStep op prog { s with turns := s.turns.tail } = .ok t)
    (hd : t.seqOp = none) : drive op prog (n + 1) s = .next t := by
  rcases seqFirst_cases hs with ht | ⟨ts, ht⟩
  · have he : ({ s with turns := s.turns.tail } : State) = s := by rw [ht]; cases s; simp_all
    rw [he] at h
    simp only [drive, runTo, outcome_stands, ht, h, hd, Option.isNone_none, if_true]
  · simp only [ht, List.tail_cons] at h
    simp only [drive, runTo, outcome_stands, ht, h, hd, Option.isNone_none, if_true]

/-- With no order imposed: SEQ moves on to another micro-step. -/
theorem drive_calm_more {op : Op} {prog : List MicroStep} {n : Nat} {s t : State}
    (hs : s.turns = []) (h : seqStep op prog s = .ok t) (hr : t.seqOp.isNone = false)
    (hp : t.spc ≠ s.spc) : drive op prog (n + 1) s = drive op prog n t := by
  simp only [drive, runTo, hs, h, hr, if_pos hp, Bool.false_eq_true, if_false]

/-- With no order imposed: SEQ polls in vain and ENG completes what is pending. -/
theorem drive_calm_poll {op : Op} {prog : List MicroStep} {n : Nat} {s t : State}
    (hs : s.turns = []) (h : seqStep op prog s = .ok t) (hr : t.seqOp.isNone = false)
    (hp : t.spc = s.spc) (he : t.pend ≠ .none) :
    drive op prog (n + 1) s = drive op prog n (engStep t) := by
  simp only [drive, runTo, hs, h, hr, if_neg (not_not.mpr hp), if_neg he, Bool.false_eq_true, if_false]

/-- With no order imposed: SEQ polls in vain with nothing pending, and the run is left there (R219). -/
theorem drive_calm_hang {op : Op} {prog : List MicroStep} {n : Nat} {s t : State}
    (hs : s.turns = []) (h : seqStep op prog s = .ok t) (hr : t.seqOp.isNone = false)
    (hp : t.spc = s.spc) (he : t.pend = .none) :
    drive op prog (n + 1) s = .next t := by
  simp only [drive, runTo, outcome_stands, hs, h, hr, if_neg (not_not.mpr hp), if_pos he, Bool.false_eq_true, if_false]

/-! ## Micro-steps of a run with no order imposed, by index -/

/-- A micro-step that leaves `SPC` at the next index. -/
theorem drive_calm_act {op : Op} {prog : List MicroStep} {n k : Nat} {s t : State} {m : MicroStep}
    (hs : s.turns = []) (hk : s.spc = k) (hm : prog[k]? = some m)
    (h : m k prog.length { s with spc := k + 1 } = .ok t) (ht : t.spc = k + 1)
    (hl : k + 1 < prog.length) (hr : t.seqOp.isNone = false) :
    drive op prog (n + 1) s = drive op prog n t := by
  subst hk
  exact drive_calm_more hs (seqStep_more hm h (by omega)) hr (by omega)

/-- The last micro-step of a command. -/
theorem drive_calm_end {op : Op} {prog : List MicroStep} {n k : Nat} {s t : State} {m : MicroStep}
    (hs : s.turns = []) (hk : s.spc = k) (hm : prog[k]? = some m)
    (h : m k prog.length { s with spc := k + 1 } = .ok t) (hl : prog.length ≤ t.spc) :
    drive op prog (n + 1) s = .next (t.finish op) := by
  subst hk
  have he : ({ s with turns := s.turns.tail } : State) = s := by rw [hs]; cases s; simp_all
  refine drive_seq_last (calm_seqFirst hs) ?_ rfl
  rw [he]
  exact seqStep_last hm h hl

/-- A micro-step that faults. -/
theorem drive_calm_fault {op : Op} {prog : List MicroStep} {n k : Nat} {s : State} {m : MicroStep}
    {f : Fault} (hs : s.turns = []) (hk : s.spc = k) (hm : prog[k]? = some m)
    (h : m k prog.length { s with spc := k + 1 } = .error f) :
    drive op prog (n + 1) s = .fault f := by
  subst hk
  have he : ({ s with turns := s.turns.tail } : State) = s := by rw [hs]; cases s; simp_all
  refine drive_seq_fault (calm_seqFirst hs) ?_
  rw [he]
  exact seqStep_fault hm h

/-! ## Commands of one micro-step -/

/-- A command of one micro-step that does not fault, with SEQ next to move. -/
theorem runCommand_one {op : Op} {m : MicroStep} {a d : Word} {s t : State} (hs : s.SeqFirst)
    (h : m 0 1 { s.accept op a d with turns := s.turns.tail, spc := 1 } = .ok t) (ht : 1 ≤ t.spc) :
    runCommand op [m] a d s = .next (t.finish op) := by
  have hs' : (s.accept op a d).SeqFirst := hs
  exact drive_seq_last hs' (seqStep_last (m := m) rfl h ht) rfl

/-- The same, for the state the command is known to end in. -/
theorem runCommand_one_eq {op : Op} {m : MicroStep} {a d : Word} {s t u : State} (hs : s.SeqFirst)
    (h : m 0 1 { s.accept op a d with turns := s.turns.tail, spc := 1 } = .ok t) (ht : 1 ≤ t.spc)
    (hu : t.finish op = u) : runCommand op [m] a d s = .next u := by
  rw [runCommand_one hs h ht, hu]

/-- A command of one micro-step that faults, with SEQ next to move. -/
theorem runCommand_one_fault {op : Op} {m : MicroStep} {a d : Word} {s : State} {f : Fault}
    (hs : s.SeqFirst)
    (h : m 0 1 { s.accept op a d with turns := s.turns.tail, spc := 1 } = .error f) :
    runCommand op [m] a d s = .fault f := by
  have hs' : (s.accept op a d).SeqFirst := hs
  exact drive_seq_fault hs' (seqStep_fault (m := m) rfl h)

/-- A run with no order imposed starts with 64 steps to spare. -/
theorem runCommand_calm {op : Op} {prog : List MicroStep} {a d : Word} {s : State} (h : s.turns = []) :
    runCommand op prog a d s = drive op prog 64 (s.accept op a d) := by
  simp only [runCommand, runBound, h, List.length_nil, Nat.zero_add]

/-! ## The macros that poll and guard (R137) -/

theorem spinNotBusy_idle {s : State} (hc : s.cfg.Ok) (hb : s.bsy = false) (k n : Nat) :
    spinNotBusy k n s = .ok { s with rt := statrWord s } := by
  have h := bitOf_statrWord_bsy hc
  simp only [spinNotBusy, regReadStatr, h, hb, Bool.false_eq_true, if_false]

theorem spinNotBusy_busy {s : State} (hc : s.cfg.Ok) (hb : s.bsy = true) (k n : Nat) :
    spinNotBusy k n s = .ok { s with rt := statrWord s, spc := k } := by
  have h := bitOf_statrWord_bsy hc
  simp only [spinNotBusy, regReadStatr, h, hb, if_true]

theorem guardLock_unlocked {s : State} (hc : s.cfg.Ok) (hl : s.lock = false) (k n : Nat) :
    guardLock k n s = .ok { s with rt := ctlrWord s } := by
  obtain ⟨-, -, -, -, -, h⟩ := bitOf_ctlrWord hc
  simp only [guardLock, regReadCtlr, h, hl, Bool.false_eq_true, if_false]

theorem guardLock_locked {s : State} (hc : s.cfg.Ok) (hl : s.lock = true) (k n : Nat) :
    guardLock k n s = .ok { s with rt := ctlrWord s, spc := n } := by
  obtain ⟨-, -, -, -, -, h⟩ := bitOf_ctlrWord hc
  simp only [guardLock, regReadCtlr, h, hl, if_true]

/-- A pending operation at a spin: SEQ polls in vain, ENG completes it, SEQ goes on. -/
theorem drive_calm_spin {op : Op} {prog : List MicroStep} {n k : Nat} {s : State}
    (hs : s.turns = []) (hc : s.cfg.Ok) (hk : s.spc = k) (hm : prog[k]? = some spinNotBusy)
    (hr : s.seqOp.isNone = false) (hb : s.bsy = true) (hp : s.pend ≠ .none)
    (hl : k < prog.length) :
    drive op prog (n + 1) s = drive op prog n (engStep { s with rt := statrWord s }) := by
  subst hk
  have h := spinNotBusy_busy (s := { s with spc := s.spc + 1 }) hc hb s.spc prog.length
  exact drive_calm_poll hs (seqStep_more hm h hl) hr rfl hp

end Sys2Proof.Machine
end

