-- ==== Sys2Proof/Tests/Slice0.lean ====
section
/-! SUPPORT. The model's own tests. Expected values are those of spec/95_test_vectors.md (entries V and
programs P), or hand-calculated from the rule named. Three parts: encoding, one step of each command, and
a witness for the hypotheses of every obligation that has any. -/

namespace Sys2Proof.Tests

open Sys2Proof Sys2Proof.Machine

/-! ## States to test on -/

/-- The block after reset, with the option cells of vector V47 in place of unknown ones. -/
def afterReset : State :=
  { State.reset with ob := ⟨0x5AA5#16, 0xA55A#16, 0x00FF#16, 0x0FF0#16, 0xFF00#16, 0x8877#16⟩ }

/-- "Unlocked, idle" of the vectors. -/
def unlocked : State := { afterReset with lock := false }

/-- "Both open, idle" of the vectors. -/
def bothOpen : State := { unlocked with obl := false }

/-- Page 255 is write protected. -/
def guardedPage : Config := { Config.family with protectedPages := [255] }

/-- Page 255 is being erased. -/
def erasing : State :=
  { unlocked with per := true, strt := true, bsy := true, pend := .erase 255, addr := 0x08003FC0#32 }

/-- Cell 8165 is being programmed with 0xBEEF. -/
def programming : State :=
  (({ unlocked with pg := true, bsy := true, pend := .prog 8165 0xBEEF#16 } : State)).setMainCell 8165
    0xFFFF#16

/-- Option cell DATA1 is being programmed. -/
def obProgramming : State :=
  { bothOpen with obpg := true, bsy := true, pend := .obProg .data1 0xED12#16 }

/-- The option block is being erased. -/
def obErasing : State := { bothOpen with ober := true, strt := true, bsy := true, pend := .obErase }

/-- Unlocked, with cells 8162, 8163 and 8165 erased. -/
def blank : State :=
  ((unlocked.setMainCell 8162 0xFFFF#16).setMainCell 8163 0xFFFF#16).setMainCell 8165 0xFFFF#16

/-- The main flash of vector V44. -/
def stored : State :=
  (((((afterReset.setMainCell 8160 0x1234#16).setMainCell 8161 0xABCD#16).setMainCell 8162
    0x0000#16).setMainCell 8163 0x3F80#16).setMainCell 8165 0xBEEF#16).setMainCell 8191 0xA1B2#16

/-- The state an outcome leads to. -/
def after (o : Host.Outcome State Fault Refusal) : Option State :=
  match o with
  | .next s => some s
  | _ => none

/-- The fault an outcome is. -/
def faultOf (o : Host.Outcome State Fault Refusal) : Option Fault :=
  match o with
  | .fault f => some f
  | _ => none

/-- The value a command answers with. -/
def reply (o : Host.Outcome State Fault Refusal) : Option Response := (after o).bind State.response

/-! ## Well-formedness: one ill-formed command for each check -/

theorem test_wellformed_accepts : (Instr.ldob 5#32 0#32).WellFormed := by decide

/-- R92: `a` is not used by UNLOCK. -/
theorem test_wellformed_refuses_unused_a : ¬(Instr.unlock 0xDEADBEEF#32 0#32).UnusedZero := by decide

/-- R94: `d[31:16]` is not used by ST16. -/
theorem test_wellformed_refuses_unused_d : ¬(Instr.st16 0x08003FCA#32 0x1BEEF#32).UnusedZero := by decide

/-- R64: cell id 6 names no cell. -/
theorem test_wellformed_refuses_cell_six : ¬(Instr.stob 6#32 0xED12#32).CellNamed := by decide

/-! ## Decoding: words written out from R91 and the opcode column of R93 -/

theorem test_decode_primitives :
    decode 0x01FFFFFFFFFFFFFFFF#72 = .ok (.rdStatr 0xFFFFFFFF#32 0xFFFFFFFF#32) ∧
    decode 0x020000000000000020#72 = .ok (.wrStatr 0x00000000#32 0x00000020#32) ∧
    decode 0x030000000000000000#72 = .ok (.rdCtlr 0x00000000#32 0x00000000#32) ∧
    decode 0x040000000000000042#72 = .ok (.wrCtlr 0x00000000#32 0x00000042#32) ∧
    decode 0x050000000045670123#72 = .ok (.wrKeyr 0x00000000#32 0x45670123#32) ∧
    decode 0x0600000000CDEF89AB#72 = .ok (.wrObkeyr 0x00000000#32 0xCDEF89AB#32) ∧
    decode 0x070000000008003FC0#72 = .ok (.wrAddr 0x00000000#32 0x08003FC0#32) ∧
    decode 0x0808003FCB00000000#72 = .ok (.ld8 0x08003FCB#32 0x00000000#32) ∧
    decode 0x0908003FCA00000000#72 = .ok (.ld16 0x08003FCA#32 0x00000000#32) ∧
    decode 0x0A08003FCA0000BEEF#72 = .ok (.st16 0x08003FCA#32 0x0000BEEF#32) ∧
    decode 0x0B0000000C00000000#72 = .ok (.ldob 0x0000000C#32 0x00000000#32) ∧
    decode 0x0C000000040000ED12#72 = .ok (.stob 0x00000004#32 0x0000ED12#32) := by decide

theorem test_decode_address_calculator :
    decode 0x100000000A00000000#72 = .ok (.calcAddr 0x0000000A#32 0x00000000#32) := by decide

theorem test_decode_lock_controller :
    decode 0x20DEADBEEFDEADBEEF#72 = .ok (.unlock 0xDEADBEEF#32 0xDEADBEEF#32) ∧
    decode 0x210000000000000000#72 = .ok (.unlockOb 0x00000000#32 0x00000000#32) ∧
    decode 0x220000000000000000#72 = .ok (.lock 0x00000000#32 0x00000000#32) := by decide

theorem test_decode_status_monitor :
    decode 0x300000000000000000#72 = .ok (.isBusy 0x00000000#32 0x00000000#32) ∧
    decode 0x310000000000000000#72 = .ok (.isDone 0x00000000#32 0x00000000#32) ∧
    decode 0x320000000000000000#72 = .ok (.isWperr 0x00000000#32 0x00000000#32) ∧
    decode 0x330000000000000000#72 = .ok (.clearDone 0x00000000#32 0x00000000#32) ∧
    decode 0x340000000000000000#72 = .ok (.waitNotBusy 0x00000000#32 0x00000000#32) ∧
    decode 0x350000000000000000#72 = .ok (.waitDone 0x00000000#32 0x00000000#32) := by decide

theorem test_decode_engines :
    decode 0x4008003FC000000000#72 = .ok (.erasePage 0x08003FC0#32 0x00000000#32) ∧
    decode 0x5008003FCAFFFFBEEF#72 = .ok (.program16 0x08003FCA#32 0xFFFFBEEF#32) ∧
    decode 0x5108003FC000001234#72 = .ok (.program8x2 0x08003FC0#32 0x00001234#32) ∧
    decode 0x5208003FC43F800000#72 = .ok (.programFloat 0x08003FC4#32 0x3F800000#32) := by decide

theorem test_decode_read_accessor :
    decode 0x6008003FCAFFFFFFFF#72 = .ok (.read16 0x08003FCA#32 0xFFFFFFFF#32) ∧
    decode 0x6108003FC700000000#72 = .ok (.read8 0x08003FC7#32 0x00000000#32) ∧
    decode 0x6208003FC400000000#72 = .ok (.readFloat 0x08003FC4#32 0x00000000#32) := by decide

theorem test_decode_option_byte_codec :
    decode 0x70000000000000ED12#72 = .ok (.decodeCell 0x00000000#32 0x0000ED12#32) ∧
    decode 0x710000000000000012#72 = .ok (.encodeCell 0x00000000#32 0x00000012#32) ∧
    decode 0x720000000000000000#72 = .ok (.readUser 0x00000000#32 0x00000000#32) ∧
    decode 0x730000000000000000#72 = .ok (.readRdpr 0x00000000#32 0x00000000#32) ∧
    decode 0x740000000000000000#72 = .ok (.readWrpr1 0x00000000#32 0x00000000#32) ∧
    decode 0x750000000000000000#72 = .ok (.readWrpr0 0x00000000#32 0x00000000#32) ∧
    decode 0x760000000000000000#72 = .ok (.readData1 0x00000000#32 0x00000000#32) ∧
    decode 0x770000000000000000#72 = .ok (.readData0 0x00000000#32 0x00000000#32) ∧
    decode 0x780000000000000000#72 = .ok (.readData16 0x00000000#32 0x00000000#32) ∧
    decode 0x79FFFFFFFF00001234#72 = .ok (.writeOb16 0xFFFFFFFF#32 0x00001234#32) ∧
    decode 0x7A000000000000FF00#72 = .ok (.writeOb8x2 0x00000000#32 0x0000FF00#32) := by decide

/-- V59: reserved opcodes. -/
theorem test_decode_reserved :
    [0x000000000000000000#72, 0xFFFFFFFFFFFFFFFFFF#72, 0x0D0000000000000000#72, 0x0F0000000000000000#72,
      0x110000000A00000000#72, 0x230000000000000000#72, 0x360000000000000000#72,
      0x4108003FC000000000#72, 0x5308003FCA0000BEEF#72, 0x6308003FCA00000000#72,
      0x7B0000000000001234#72, 0x800000000000000000#72].all
      (fun w => decide (decode w = .error (.reservedOpcode (opField w)))) = true := by decide

/-- R105, P4: `PROGRAM_8X2 0x08003FC0, 0x12, 0x34` is the word `51 08003FC0 00001234`. -/
theorem test_assemble_program8x2 :
    (assemble .program8x2 [0x08003FC0#32, 0x12#32, 0x34#32]).map encode =
      some 0x5108003FC000001234#72 := by decide

/-- R91: the fields of the table number: bits 71:64, 63:32, 31:0. -/
theorem test_table_word : decodeTableWord 72 0x5008003FCA0000BEEF =
    some (.program16 0x08003FCA#32 0xBEEF#32) := by decide

/-- R92, R90: the word stored for the next step is the one it runs: READ_16 of a stored cell. -/
theorem test_fetch_word : reply (step (stored.withFetchWord 72 0x6008003FCA00000000)) =
    some (.value 0xBEEF#32) := by decide

/-! ## One step of each command -/

/-- V4: idle, `EOP` and `WRPRTERR` set. -/
theorem test_rd_statr :
    reply (exec (.rdStatr 0 0) { unlocked with eop := true, wrprterr := true }) =
      some (.value 0x30#32) := by decide

/-- V4: a page erase started. -/
theorem test_rd_ctlr_erasing :
    reply (exec (.rdCtlr 0 0) erasing) = some (.value 0x42#32) := by decide

/-- V5. -/
theorem test_wr_statr_clears_done :
    (after (exec (.wrStatr 0 0x20#32) { unlocked with eop := true, wrprterr := true })).map
      (fun s => (s.eop, s.wrprterr)) = some (false, true) := by decide

/-- V9: `PER`, `STRT` and `LOCK` written together. -/
theorem test_wr_ctlr_lock_wins :
    (after (exec (.wrCtlr 0 0xC2#32) { unlocked with addr := 0x08003FC0#32 })).map
      (fun s => (s.per, s.lock, s.strt, s.bsy)) = some (true, true, false, false) := by decide

/-- V7. -/
theorem test_wr_ctlr_two_modes :
    faultOf (exec (.wrCtlr 0 0x21#32) unlocked) = some .illegalCtlr := by decide

/-- V22: a first key in HALF returns the FSM to IDLE. -/
theorem test_wr_keyr_repeated_first_key :
    (after (exec (.wrKeyr 0 0x45670123#32) { afterReset with mkFsm := .half })).map
      (fun s => (s.mkFsm, s.lock)) = some (.idle, true) := by decide

/-- V20. -/
theorem test_wr_keyr_second_key :
    (after (exec (.wrKeyr 0 0xCDEF89AB#32) { afterReset with mkFsm := .half })).map
      (fun s => (s.mkFsm, s.lock)) = some (.idle, false) := by decide

/-- V27: the option lock opens, the main lock does not. -/
theorem test_wr_obkeyr_second_key :
    (after (exec (.wrObkeyr 0 0xCDEF89AB#32) { afterReset with okFsm := .half })).map
      (fun s => (s.okFsm, s.obl, s.lock)) = some (.idle, false, true) := by decide

/-- R126, while Locked. -/
theorem test_wr_addr :
    (after (exec (.wrAddr 0 0x08003FC0#32) afterReset)).map State.addr = some 0x08003FC0#32 := by decide

/-- V16. -/
theorem test_ld8_odd_byte :
    reply (exec (.ld8 0x08003FCB#32 0) stored) = some (.value 0xBE#32) := by decide

/-- V16. -/
theorem test_ld8_below_flash :
    faultOf (exec (.ld8 0x07FFFFFF#32 0) stored) = some .outOfRange := by decide

/-- V16. -/
theorem test_ld16_little_endian :
    reply (exec (.ld16 0x08003FCA#32 0) stored) = some (.value 0xBEEF#32) := by decide

/-- V16. -/
theorem test_ld16_range_first :
    faultOf (exec (.ld16 0x08004001#32 0) stored) = some .outOfRange := by decide

/-- V13. -/
theorem test_st16_ignores_high_half :
    (after (exec (.st16 0x08003FCA#32 0xFFFFBEEF#32) { blank with pg := true })).map
      (fun s => (s.pend, s.bsy)) = some (.prog 8165 0xBEEF#16, true) := by decide

/-- V12. -/
theorem test_st16_locked_misaligned :
    faultOf (exec (.st16 0x08003FCB#32 0xBEEF#32) afterReset) = some .misaligned := by decide

/-- V17: `a[2:0]` selects, the rest is ignored. -/
theorem test_ldob_raw :
    reply (exec (.ldob 0xC#32 0) { afterReset with ob := { afterReset.ob with data1 := 0xED12#16 } }) =
      some (.value 0xED12#32) := by decide

/-- V17. -/
theorem test_ldob_bad_cell :
    faultOf (exec (.ldob 0xFFFFFFFF#32 0) afterReset) = some .badCell := by decide

/-- V17. -/
theorem test_stob_accepted :
    (after (exec (.stob 4#32 0xED12#32) { bothOpen with obpg := true })).map
      (fun s => (s.pend, s.bsy)) = some (.obProg .data1 0xED12#16, true) := by decide

/-- V17: `LOCK` = 1, `OBL` = 0, `OBPG` = 1 stored. -/
theorem test_stob_dropped_locked :
    (after (exec (.stob 4#32 0xED12#32) { bothOpen with obpg := true, lock := true })).map
      (fun s => (s.pend, s.bsy)) = some (.none, false) := by decide

/-- V1. -/
theorem test_calc_addr :
    reply (exec (.calcAddr 0xA#32 0) afterReset) = some (.value 0x08003FCA#32) := by decide

/-- V1. -/
theorem test_calc_addr_wraps :
    reply (exec (.calcAddr 0xFFFFFFFF#32 0) afterReset) = some (.value 0x08003FBF#32) := by decide

/-- V20. -/
theorem test_unlock :
    (after (exec (.unlock 0 0) afterReset)).map (fun s => (s.lock, s.mkFsm, s.obl)) =
      some (false, .idle, true) := by decide

/-- V23. -/
theorem test_unlock_after_stray_key :
    (after (exec (.unlock 0 0) { afterReset with mkFsm := .half })).map
      (fun s => (s.lock, s.mkFsm)) = some (true, .idle) := by decide

/-- V27. -/
theorem test_unlock_ob :
    (after (exec (.unlockOb 0 0) afterReset)).map (fun s => (s.obl, s.okFsm, s.lock)) =
      some (false, .idle, true) := by decide

/-- V28. -/
theorem test_lock_keeps_mode_bit :
    (after (exec (.lock 0 0) { unlocked with pg := true })).map (fun s => (s.lock, s.pg)) =
      some (true, true) := by decide

/-- V28. -/
theorem test_lock_busy :
    faultOf (exec (.lock 0 0) programming) = some .busyWrite := by decide

/-- V30. -/
theorem test_is_busy :
    reply (exec (.isBusy 0 0) { erasing with eop := true }) = some (.value 1#32) := by decide

/-- V30: STATR 0x00000010. -/
theorem test_is_done :
    reply (exec (.isDone 0 0) { unlocked with wrprterr := true }) = some (.value 0#32) := by decide

/-- V30: STATR 0x00000030. -/
theorem test_is_wperr :
    reply (exec (.isWperr 0 0) { unlocked with wrprterr := true, eop := true }) =
      some (.value 1#32) := by decide

/-- V31. -/
theorem test_clear_done :
    (after (exec (.clearDone 0 0) { unlocked with wrprterr := true, eop := true })).map
      (fun s => (s.eop, s.wrprterr)) = some (false, true) := by decide

/-- V32. -/
theorem test_wait_not_busy :
    (after (exec (.waitNotBusy 0 0) programming)).map (fun s => (s.mainCell 8165, s.eop, s.bsy)) =
      some (0xBEEF#16, true, false) := by decide

/-- V33: the done flag from before is not enough while busy, and is consumed. -/
theorem test_wait_done :
    (after (exec (.waitDone 0 0) { erasing with eop := true })).map
      (fun s => (s.mainCell 8165, s.eop, s.bsy, s.seqOp)) = some (0xFFFF#16, false, false, none) := by decide

/-- V33: idle, `EOP` = 0. -/
theorem test_wait_done_hangs :
    (after (exec (.waitDone 0 0) unlocked)).map (fun s => (s.seqOp, s.spc, s.response)) =
      some (some .waitDone, 0, none) := by decide

/-- V34. -/
theorem test_erase_page :
    (after (exec (.erasePage 0x08003FC0#32 0) (unlocked.setMainCell 8165 0x1234#16))).map
      (fun s => (s.mainCell 8165, s.mainCell 8191, s.addr, ctlrWord s, statrWord s)) =
      some (0xFFFF#16, 0xFFFF#16, 0x08003FC0#32, 0#32, 0x20#32) := by decide

/-- V36. -/
theorem test_erase_page_protected :
    (after (exec (.erasePage 0x08003FC0#32 0)
      { unlocked.setMainCell 8165 0x1234#16 with cfg := guardedPage })).map
      (fun s => (s.mainCell 8165, ctlrWord s, statrWord s)) = some (0x1234#16, 0#32, 0x10#32) := by decide

/-- V38. -/
theorem test_program_16 :
    (after (exec (.program16 0x08003FCA#32 0xFFFFBEEF#32) blank)).map
      (fun s => (s.mainCell 8165, ctlrWord s, statrWord s)) = some (0xBEEF#16, 0#32, 0x20#32) := by decide

/-- V29: a no-op at an odd address, no fault. -/
theorem test_program_16_locked :
    (after (exec (.program16 0x08003FCB#32 0) stored)).map (fun s => (s.mainCell 8165, s.eop)) =
      some (0xBEEF#16, false) := by decide

/-- V39: the low byte at the even address. -/
theorem test_program_8x2 :
    (after (exec (.program8x2 0x08003FCA#32 0x1234#32) blank)).map
      (fun s => (s.mainByte 0x08003FCA, s.mainByte 0x08003FCB)) = some (0x34#8, 0x12#8) := by decide

/-- V40. -/
theorem test_program_float :
    (after (exec (.programFloat 0x08003FC4#32 0xC0490FDB#32) blank)).map
      (fun s => (s.mainCell 8162, s.mainCell 8163)) = some (0x0FDB#16, 0xC049#16) := by decide

/-- V41: the second store. -/
theorem test_program_float_at_end :
    faultOf (exec (.programFloat 0x08003FFE#32 0x3F800000#32) (unlocked.setMainCell 8191 0xFFFF#16)) =
      some .outOfRange := by decide

/-- V44. -/
theorem test_read_16 :
    reply (exec (.read16 0x08003FC0#32 0) stored) = some (.value 0x1234#32) := by decide

/-- V44. -/
theorem test_read_8_zero_extends :
    reply (exec (.read8 0x08003FCB#32 0) stored) = some (.value 0xBE#32) := by decide

/-- V44. -/
theorem test_read_float :
    reply (exec (.readFloat 0x08003FC4#32 0) stored) = some (.value 0x3F800000#32) := by decide

/-- V44: `a` need only be even. -/
theorem test_read_float_even_only :
    reply (exec (.readFloat 0x08003FC2#32 0) stored) = some (.value 0xABCD#32) := by decide

/-- The option cells of vector V46. -/
def fields : State :=
  { afterReset with ob := ⟨0x5AA5#16, 0xA55A#16, 0x00FF#16, 0x0FF0#16, 0xED12#16, 0xCB34#16⟩ }

/-- V45: `d[31:16]` ignored. -/
theorem test_decode_cell :
    reply (exec (.decodeCell 0 0xFFFFED12#32) afterReset) = some (.value 0x12#32) := by decide

/-- V45: one check bit wrong. -/
theorem test_decode_cell_check_bit :
    reply (exec (.decodeCell 0 0xEC12#32) afterReset) = some (.value 0#32) := by decide

/-- V45: `d[31:8]` ignored. -/
theorem test_encode_cell :
    reply (exec (.encodeCell 0 0xFFFFFF12#32) afterReset) = some (.value 0xED12#32) := by decide

/-- V46. -/
theorem test_read_user :
    reply (exec (.readUser 0 0) fields) = some (.value 0xA5#32) := by decide

/-- V46. -/
theorem test_read_rdpr :
    reply (exec (.readRdpr 0 0) fields) = some (.value 0x5A#32) := by decide

/-- V46. -/
theorem test_read_wrpr1 :
    reply (exec (.readWrpr1 0 0) fields) = some (.value 0xFF#32) := by decide

/-- V46. -/
theorem test_read_wrpr0 :
    reply (exec (.readWrpr0 0 0) fields) = some (.value 0xF0#32) := by decide

/-- V46. -/
theorem test_read_data1 :
    reply (exec (.readData1 0 0) fields) = some (.value 0x12#32) := by decide

/-- V46. -/
theorem test_read_data0 :
    reply (exec (.readData0 0 0) fields) = some (.value 0x34#32) := by decide

/-- V46. -/
theorem test_read_data16 :
    reply (exec (.readData16 0 0) fields) = some (.value 0x1234#32) := by decide

/-- V46: DATA0 erased. -/
theorem test_read_data16_one_bad :
    reply (exec (.readData16 0 0) { fields with ob := { fields.ob with data0 := 0xFFFF#16 } }) =
      some (.value 0x1200#32) := by decide

/-- V47. -/
theorem test_write_ob_16 :
    (after (exec (.writeOb16 0 0xFFFF1234#32) bothOpen)).map
      (fun s => (s.ob, ctlrWord s, statrWord s)) = some (fields.ob, 0#32, 0x20#32) := by decide

/-- V50 under `OB_STORE_AUTOCOMPLEMENT`. -/
theorem test_write_ob_16_autocomplement :
    (after (exec (.writeOb16 0 0xABCD#32) { bothOpen with
        cfg := { Config.family with obStoreAutocomplement := true }
        ob := ⟨0xFFFF#16, 0x1234#16, 0x00FF#16, 0x00FF#16, 0xFFFF#16, 0xFFFF#16⟩ })).map State.ob =
      some ⟨0x00FF#16, 0xCB34#16, 0x00FF#16, 0x00FF#16, 0x54AB#16, 0x32CD#16⟩ := by decide

/-- V51. -/
theorem test_write_ob_8x2 :
    (after (exec (.writeOb8x2 0 0xFF00#32) bothOpen)).map (fun s => (s.ob.data1, s.ob.data0)) =
      some (0x00FF#16, 0xFF00#16) := by decide

/-- V48: nothing is written and nothing reports it. -/
theorem test_write_ob_8x2_option_locked :
    (after (exec (.writeOb8x2 0 0x1234#32) unlocked)).map
      (fun s => (s.ob, s.eop, s.response)) = some (unlocked.ob, false, some .done) := by decide

/-! ## Schedules and RESET -/

/-- V32: ENG may step before the first poll; the outcome is the same. -/
theorem test_engine_first :
    (after (exec (.waitNotBusy 0 0) { programming with turns := [.eng, .seq] })).map
      (fun s => (s.mainCell 8165, s.eop, s.turns)) = some (0xBEEF#16, true, []) := by decide

/-- V56: RESET after the erase of the option block completed, before micro-step 12: all six cells erased,
both locks closed, no response. -/
theorem test_reset_in_write_ob :
    (after (exec (.writeOb16 0 0x1234#32) { bothOpen with
        host := [.reset]
        turns := List.replicate 9 .seq ++ [.eng, .seq, .seq, .seq, .host] })).map
      (fun s => (s.ob, s.lock, s.obl, s.response, s.seqOp)) =
      some (OptionBytes.erased, true, true, none, none) := by decide

/-- V57: RESET between the halves of PROGRAM_FLOAT leaves a torn value. -/
theorem test_reset_tears_float :
    (after (exec (.programFloat 0x08003FC4#32 0x40490FDB#32) { blank with
        host := [.reset]
        turns := List.replicate 4 .seq ++ [.eng, .seq, .seq, .seq, .host] })).map
      (fun s => (s.mainCell 8162, s.mainCell 8163)) = some (0x0FDB#16, 0xFFFF#16) := by decide

/-- V41: PROGRAM_FLOAT at the last cell. The fault of its second store is marked in the state of micro-step
10: the first half is programmed, `EOP` is set, `PG` is set again, and the command still stands. -/
theorem test_fault_keeps_first_half :
    (let s := markedStep { unlocked.setMainCell 8191 0xFFFF#16 with
        host := [.command 0x5208003FFE3F800001#72] }
     (s.fault, s.mainCell 8191, s.eop, s.pg, s.seqOp, s.spc)) =
      (some .outOfRange, 0x0001#16, true, true, some .programFloat, 10) := by decide

/-- R138: once a fault is marked no agent moves. -/
theorem test_marked_state_stands :
    (markedAgentStep .eng (erasing.marked .badCell)).pend = .erase 255 := by decide

/-- V25: RESET leaves DEAD. -/
theorem test_reset_revives_keys :
    (after (step { afterReset with mkFsm := .dead, host := [.reset] })).map State.mkFsm =
      some .idle := by decide

/-- V59: a reserved word is refused, and leaves code 1. -/
theorem test_reserved_word_marks :
    (markedStep { afterReset with host := [.command 0x0D0000000000000000#72] }).fault.map Fault.code =
      some 1 := by decide

/-- R137, R138, V29: a locked ERASE_PAGE is one micro-step. -/
theorem test_locked_erase_is_one_micro_step :
    (after (runAgents [.host, .seq] { afterReset with
        host := [.command 0x4008003FC000000000#72] })).map (fun s => (s.seqOp, s.spc, s.addr)) =
      some (none, 7, 0#32) := by decide

/-! ## Witnesses: a concrete state and operands that meet all the hypotheses of an obligation, clause by
clause. -/

theorem family_ok : Config.family.Ok where
  base_page := by decide
  size_page := by decide
  fits := by decide
  nv_even := by decide
  nv_fits := by decide
  statr_distinct := by decide
  statr_small := by decide
  ctlr_distinct := by decide
  ctlr_small := by decide

theorem guardedPage_ok : guardedPage.Ok := { family_ok with }

theorem unlocked_idle : unlocked.UnlockedIdle := ⟨family_ok, rfl, by decide, by decide⟩

theorem blank_idle : blank.UnlockedIdle := ⟨family_ok, rfl, by decide, by decide⟩

theorem bothOpen_idle : bothOpen.UnlockedIdle := ⟨family_ok, rfl, by decide, by decide⟩

theorem guarded_idle : { unlocked with cfg := guardedPage }.UnlockedIdle :=
  ⟨guardedPage_ok, rfl, by decide, by decide⟩

theorem unlocked_inv : unlocked.Inv where
  cfg_ok := family_ok
  busy_iff_pending := by decide
  busy_unlocked := by decide
  one_mode := by decide
  start_erases := by intro h; cases h
  erase_mode := by intro p h; cases h
  prog_mode := by intro i v h; cases h
  obErase_mode := by intro h; cases h
  obProg_mode := by intro c v h; cases h
  never_dead := by decide
  spc_small := by decide
  main_wf := rfl
  main_exists := by intro c h; cases h

/-- A state in the middle of an operation meets the invariant too. -/
theorem erasing_inv : erasing.Inv where
  cfg_ok := family_ok
  busy_iff_pending := by decide
  busy_unlocked := by decide
  one_mode := by decide
  start_erases := fun _ => .inr ⟨255, rfl⟩
  erase_mode := by intro p h; cases h; decide
  prog_mode := by intro i v h; cases h
  obErase_mode := by intro h; cases h
  obProg_mode := by intro c v h; cases h
  never_dead := by decide
  spc_small := by decide
  main_wf := rfl
  main_exists := by intro c h; cases h

theorem witness_EncodeOfDecode :
    decode 0x5008003FCA0000BEEF#72 = .ok (.program16 0x08003FCA#32 0xBEEF#32) := by decide

theorem witness_ReservedOpcodesRefused :
    let s : State := { afterReset with host := [.command 0#72] }
    s.Safe ∧ s.seqOp = none ∧ s.Calm ∧ s.host = [.command 0#72] ∧
      ∀ op : Op, op.code ≠ opField 0#72 :=
  ⟨rfl, rfl, rfl, rfl, by intro op; cases op <;> decide⟩

theorem witness_StepRunsDecodedCommand :
    let s : State := { stored with host := [.command 0x6008003FCA00000000#72] }
    s.Safe ∧ s.seqOp = none ∧ s.host = .command 0x6008003FCA00000000#72 :: [] ∧
      decode 0x6008003FCA00000000#72 = .ok (.read16 0x08003FCA#32 0) ∧ s.turns = [] ∧
      ({ s with turns := [.host] } : State).turns = .host :: [] := by decide

/-- One state for each of the two clauses. -/
theorem witness_TurnBeforeCommandIsTakenFirst :
    ({ programming with turns := [.eng, .seq] } : State).turns = .eng :: [.seq] ∧
    (let s : State := { unlocked with turns := [.host], host := [.reset] }
     s.turns = .host :: [] ∧ s.host = .reset :: [] ∧ s.pend = .none) := by decide

theorem witness_CommandIsRunOfAgentSteps :
    unlocked.Safe ∧ unlocked.seqOp = none ∧ ∃ t, exec (.waitDone 0 0) unlocked = .next t :=
  ⟨rfl, rfl, _, rfl⟩

/-- Both ways in which RESET is not due. -/
theorem witness_OrderDoesNotMatterFromRest :
    let s : State := { unlocked with turns := [.eng, .seq, .eng], host := [.reset] }
    let u : State := { unlocked with turns := [.host, .seq], host := [.command 0#72] }
    s.cfg.Ok ∧ s.Rested ∧ s.ResetNotDue ∧ u.cfg.Ok ∧ u.Rested ∧ u.ResetNotDue :=
  ⟨family_ok, by decide, by decide, family_ok, by decide, by decide⟩

theorem witness_OnlyWaitDoneHangs :
    unlocked.Inv ∧ ∃ t, exec (.waitDone 0 0) unlocked = .next t ∧ t.seqOp ≠ none :=
  ⟨unlocked_inv, _, rfl, by decide⟩

theorem witness_ResetMeetsInvariant : guardedPage.Ok := guardedPage_ok

theorem witness_StepKeepsInvariant :
    erasing.Inv ∧ ∃ t, step erasing = .next t := ⟨erasing_inv, _, rfl⟩

theorem witness_AgentStepKeepsInvariant :
    erasing.Inv ∧ (∃ t, agentStep .eng erasing = .next t) ∧ (∃ t, agentStep .seq erasing = .next t) ∧
      ∃ t, agentStep .host erasing = .next t := ⟨erasing_inv, ⟨_, rfl⟩, ⟨_, rfl⟩, _, rfl⟩

theorem witness_OperationsClearModeBits :
    0x10 ≤ (Instr.erasePage 0 0).op.code.toNat ∧ unlocked.cfg.Ok ∧ unlocked.ModesClear ∧
      ∃ t, exec (.erasePage 0x08003FC0#32 0) unlocked = .next t :=
  ⟨by decide, family_ok, by decide, _, rfl⟩

/-- A SEQ micro-step of a store: PROGRAM_16 at its micro-step 3. -/
theorem witness_SequencerChangesNoCell :
    ∃ t, agentStep .seq { blank with
      seqOp := some .program16, spc := 3, ra := 0x08003FCA#32, rd := 0xBEEF#32, pg := true } = .next t ∧
      t.pend = .prog 8165 0xBEEF#16 := ⟨_, rfl, by decide⟩

/-- Each clause: a lock opened by a key write and by UNLOCK or UNLOCK_OB, and the option lock already
open. -/
theorem witness_LocksOpenOnlyByKeys :
    (∃ t, agentStep .seq { afterReset with
      seqOp := some .wrKeyr, rd := 0xCDEF89AB#32, mkFsm := .half } = .next t ∧ t.lock = false) ∧
    (∃ t, agentStep .seq { afterReset with
      seqOp := some .unlock, spc := 1, mkFsm := .half } = .next t ∧ t.lock = false) ∧
    (∃ t, agentStep .seq { afterReset with
      seqOp := some .wrObkeyr, rd := 0xCDEF89AB#32, okFsm := .half } = .next t ∧ t.obl = false) ∧
    (∃ t, agentStep .seq { afterReset with
      seqOp := some .unlockOb, spc := 1, okFsm := .half } = .next t ∧ t.obl = false) ∧
    (∃ t, agentStep .seq { bothOpen with seqOp := some .lock } = .next t ∧ bothOpen.obl = false) :=
  ⟨⟨_, rfl, by decide⟩, ⟨_, rfl, by decide⟩, ⟨_, rfl, by decide⟩, ⟨_, rfl, by decide⟩, _, rfl,
    by decide⟩

theorem witness_LockedStartsNothing :
    afterReset.lock = true ∧ ∃ t, agentStep .seq { afterReset with
      seqOp := some .wrCtlr, rd := 0x42#32 } = .next t := ⟨rfl, _, rfl⟩

/-- Both clauses: a read that faults and one that answers. -/
theorem witness_NoValueDependsOnOptionLock :
    hasResult (Instr.read16 0 0).op = true ∧ stored.Calm ∧
      exec (.read16 0#32 0) stored = .fault .outOfRange ∧
      ∃ t, exec (.read16 0x08003FCA#32 0) stored = .next t :=
  ⟨rfl, rfl, rfl, _, rfl⟩

/-- All five clauses. -/
theorem witness_FaultMarkIsFirstAndFinal :
    (afterReset.marked .badCell).fault = some .badCell ∧
    (let s : State := { afterReset with seqOp := some .ldob, ra := 6#32 }
     s.fault = none ∧ agentStep .seq s = .fault .badCell) ∧
    (let s : State := { afterReset with host := [.command 0#72] }
     s.fault = none ∧ agentStep .host s = .refused .illegalCommand ∧
       step s = .refused .illegalCommand) ∧
    (let s : State := { afterReset with host := [.command 0x0B0000000600000000#72] }
     s.fault = none ∧ step s = .fault .badCell) :=
  ⟨rfl, ⟨rfl, rfl⟩, ⟨rfl, rfl, rfl⟩, rfl, rfl⟩

/-- SEQ is first with no order left, and with an order that names it; the premise of every statement
about a command of one micro-step. -/
theorem witness_RegisterReadsReturnFields :
    unlocked.SeqFirst ∧ ({ unlocked with turns := [.seq, .eng] } : State).SeqFirst := by decide

theorem witness_WrStatrClearsWrittenOnes :
    ({ erasing with turns := [.seq, .eng], eop := true } : State).SeqFirst := by decide

/-- Every case, in order; the two illegal ones, and the four starts, apart. -/
theorem witness_WrCtlrFollowsItsTests :
    unlocked.SeqFirst ∧ erasing.bsy = true ∧ (afterReset.bsy = false ∧ afterReset.lock = true) ∧
    (unlocked.bsy = false ∧ unlocked.lock = false ∧
      0x80000000#32 &&& ~~~(ctlrDefined unlocked.cfg) ≠ 0#32) ∧
    modeCount (bitOf 0x30#32 0) (bitOf 0x30#32 1) (bitOf 0x30#32 4) (bitOf 0x30#32 5) > 1 ∧
    (0xC2#32 &&& ~~~(ctlrDefined unlocked.cfg) = 0#32 ∧
      modeCount (bitOf 0xC2#32 0) (bitOf 0xC2#32 1) (bitOf 0xC2#32 4) (bitOf 0xC2#32 5) ≤ 1 ∧
      bitOf 0xC2#32 unlocked.cfg.lockBit = true) ∧
    (bitOf 1#32 unlocked.cfg.lockBit = false ∧ bitOf 1#32 unlocked.cfg.strtBit = false) ∧
    (bitOf 0x42#32 unlocked.cfg.strtBit = true ∧ bitOf 0x42#32 unlocked.cfg.perBit = true ∧
      inMain unlocked.cfg unlocked.addr = false ∧
      inMain unlocked.cfg 0x08003FC2#32 = true ∧ (0x08003FC2#32).toNat % 64 ≠ 0 ∧
      inMain unlocked.cfg 0x08003FC0#32 = true ∧ (0x08003FC0#32).toNat % 64 = 0) ∧
    (bitOf 0x60#32 unlocked.cfg.perBit = false ∧ bitOf 0x60#32 unlocked.cfg.oberBit = true ∧
      bothOpen.obl = false ∧ unlocked.obl = true) := by decide

theorem witness_WrKeyrStepsMainKeys :
    afterReset.SeqFirst ∧ ({ afterReset with mkFsm := .dead } : State).mkFsm = .dead ∧
    afterReset.mkFsm = .idle ∧ ({ afterReset with mkFsm := .half } : State).mkFsm = .half ∧
    0xCDEF89AB#32 = afterReset.cfg.key2 ∧ 0x45670123#32 ≠ afterReset.cfg.key2 := by decide

theorem witness_WrObkeyrStepsOptionKeys :
    let ignoring : State := { afterReset with cfg := { Config.family with obKeyNeedsMainUnlocked := true } }
    afterReset.SeqFirst ∧
    (ignoring.cfg.obKeyNeedsMainUnlocked = true ∧ ignoring.lock = true) ∧
    ¬(afterReset.cfg.obKeyNeedsMainUnlocked = true ∧ afterReset.lock = true) ∧
    ({ afterReset with okFsm := .dead } : State).okFsm = .dead ∧ afterReset.okFsm = .idle ∧
    ({ afterReset with okFsm := .half } : State).okFsm = .half ∧
    0xCDEF89AB#32 = afterReset.cfg.obKey2 ∧ 0x45670123#32 ≠ afterReset.cfg.obKey2 := by decide

theorem witness_WrAddrStoresAddress :
    afterReset.SeqFirst ∧ erasing.bsy = true ∧ afterReset.bsy = false := by decide

/-- The address 0x08003FCA is under no operation in `stored`, under the erase in `erasing`, under the
program in `programming`; 0x08004000 is the first address outside. -/
theorem witness_ByteReadsReturnStoredByte :
    stored.cfg.Ok ∧ stored.SeqFirst ∧ inMain stored.cfg 0x08004000#32 = false ∧
    inMain stored.cfg 0x08003FFF#32 = true ∧ ¬stored.UnderMain 0x08003FFF#32 ∧
    erasing.UnderMain 0x08003FCB#32 ∧ programming.UnderMain 0x08003FCA#32 :=
  ⟨family_ok, by decide, by decide, by decide,
    (by rintro (h | ⟨v, h⟩) <;> cases h), .inl (by decide), .inr ⟨0xBEEF#16, by decide⟩⟩

theorem witness_HalfReadsReturnStoredCell :
    stored.cfg.Ok ∧ stored.SeqFirst ∧ inMain stored.cfg 0x08004000#32 = false ∧
    (inMain stored.cfg 0x08003FFF#32 = true ∧ bitOf 0x08003FFF#32 0 = true) ∧
    (inMain stored.cfg 0x08003FFE#32 = true ∧ bitOf 0x08003FFE#32 0 = false) ∧
    ¬stored.UnderMain 0x08003FFE#32 ∧ erasing.UnderMain 0x08003FFE#32 :=
  ⟨family_ok, by decide, by decide, by decide, by decide,
    (by rintro (h | ⟨v, h⟩) <;> cases h), .inl (by decide)⟩

theorem witness_St16StartsProgram :
    unlocked.SeqFirst ∧ inMain unlocked.cfg 0x08004000#32 = false ∧
    (inMain unlocked.cfg 0x08003FFF#32 = true ∧ bitOf 0x08003FFF#32 0 = true) ∧
    (inMain unlocked.cfg 0x08003FFE#32 = true ∧ bitOf 0x08003FFE#32 0 = false ∧ erasing.bsy = true) ∧
    (unlocked.bsy = false ∧ unlocked.pg = false) ∧
    (let s : State := { unlocked with pg := true }
     s.bsy = false ∧ s.lock = false ∧ s.pg = true) := by decide

theorem witness_LdobReturnsRawCell :
    unlocked.SeqFirst ∧ (cellOperand 6#32).toNat > 5 ∧ cellOf (cellOperand 5#32) = some .data0 ∧
    ¬unlocked.UnderOb .data0 ∧ obErasing.UnderOb .data0 ∧
    cellOf (cellOperand 4#32) = some .data1 ∧ obProgramming.UnderOb .data1 :=
  ⟨by decide, by decide, by decide, (by rintro (h | ⟨v, h⟩) <;> cases h), .inl rfl, by decide,
    .inr ⟨0xED12#16, rfl⟩⟩

theorem witness_StobStartsOptionProgram :
    unlocked.SeqFirst ∧ (cellOperand 7#32).toNat > 5 ∧ cellOf (cellOperand 0#32) = some .user ∧
    erasing.bsy = true ∧ (unlocked.bsy = false ∧ unlocked.obl = true) ∧
    (let s : State := { bothOpen with obpg := true }
     s.bsy = false ∧ s.lock = false ∧ s.obl = false ∧ s.obpg = true) := by decide

theorem witness_EngineErasesPage :
    erasing.Safe ∧ erasing.pend = .erase 255 ∧ erasing.cfg.writeProtected 255 = false ∧
    ({ erasing with cfg := guardedPage } : State).cfg.writeProtected 255 = true := by decide

theorem witness_EngineProgramsCell :
    programming.Safe ∧ programming.pend = .prog 8165 0xBEEF#16 ∧
    programming.cfg.writeProtected (8165 / 32) = false ∧
    programming.mainCell 8165 = 0xFFFF#16 ∧
    guardedPage.writeProtected (8165 / 32) = true ∧
    (programming.setMainCell 8165 0x1234#16).mainCell 8165 ≠ 0xFFFF#16 ∧
    obProgramming.Safe ∧ obProgramming.pend = .obProg .data1 0xED12#16 ∧
    obProgramming.ob.cell .data1 ≠ 0xFFFF#16 ∧
    ({ obProgramming with ob := OptionBytes.erased } : State).ob.cell .data1 = 0xFFFF#16 := by decide

theorem witness_EngineErasesOptionBlock : obErasing.Safe ∧ obErasing.pend = .obErase := by decide

/-- An idle block and one that runs a command, both with RESET as HOST's next action. -/
theorem witness_ResetStepClosesAndKeeps :
    unlocked.pend = .none ∧
    (let s : State := { unlocked with host := [.reset] }
     s.Safe ∧ s.host = .reset :: [] ∧ s.turns = []) ∧
    (let s : State := { unlocked with
      seqOp := some .waitDone, host := [.reset], turns := [.host, .seq] }
     s.Safe ∧ s.host = .reset :: [] ∧ s.turns = .host :: [.seq]) := by decide

theorem witness_ResetSpoilsOnlyPendingCells :
    unlocked.pend = .none ∧ erasing.pend = .erase 255 ∧ programming.pend = .prog 8165 0xBEEF#16 ∧
    obErasing.pend = .obErase ∧ obProgramming.pend = .obProg .data1 0xED12#16 := by decide

theorem witness_CalcAddrAddsRegionStart : erasing.SeqFirst := by decide

theorem witness_UnlockOpensMainLock :
    afterReset.Calm ∧ afterReset.mkFsm = .idle ∧
    ({ afterReset with mkFsm := .dead } : State).mkFsm = .dead ∧
    ({ afterReset with mkFsm := .half } : State).mkFsm = .half ∧
    afterReset.cfg.key1 ≠ afterReset.cfg.key2 ∧ afterReset.cfg.keyFailPolicy = .restart ∧
    ({ Config.family with keyFailPolicy := .dead } : Config).keyFailPolicy = .dead ∧
    ({ Config.family with key2 := 0x45670123#32 } : Config).key1 = 0x45670123#32 := by decide

theorem witness_UnlockObOpensOptionLock :
    let ignoring : State := { afterReset with cfg := { Config.family with obKeyNeedsMainUnlocked := true } }
    afterReset.Calm ∧ (ignoring.cfg.obKeyNeedsMainUnlocked = true ∧ ignoring.lock = true) ∧
    ¬(afterReset.cfg.obKeyNeedsMainUnlocked = true ∧ afterReset.lock = true) ∧
    afterReset.okFsm = .idle ∧ ({ afterReset with okFsm := .dead } : State).okFsm = .dead ∧
    ({ afterReset with okFsm := .half } : State).okFsm = .half ∧
    afterReset.cfg.obKey1 ≠ afterReset.cfg.obKey2 ∧ afterReset.cfg.keyFailPolicy = .restart ∧
    ({ Config.family with keyFailPolicy := .dead } : Config).keyFailPolicy = .dead ∧
    ({ Config.family with obKey2 := 0x45670123#32 } : Config).obKey1 = 0x45670123#32 := by decide

theorem witness_LockClosesMainLock :
    programming.cfg.Ok ∧ programming.OneMode ∧ programming.SeqFirst ∧ programming.bsy = true ∧
    unlocked.cfg.Ok ∧ unlocked.OneMode ∧ unlocked.bsy = false :=
  ⟨family_ok, by decide, by decide, by decide, family_ok, by decide, by decide⟩

theorem witness_LockedCommandsAreNoOps :
    guarded (Instr.programFloat 0 0).op = true ∧ afterReset.cfg.Ok ∧ afterReset.SeqFirst ∧
    afterReset.lock = true := ⟨rfl, family_ok, by decide, rfl⟩

theorem witness_FlagReadsReturnFlag : erasing.cfg.Ok ∧ erasing.SeqFirst := ⟨family_ok, by decide⟩

theorem witness_ClearDoneClearsDoneFlag : erasing.cfg.Ok ∧ erasing.SeqFirst := ⟨family_ok, by decide⟩

theorem witness_WaitNotBusyEndsNotBusy :
    unlocked.cfg.Ok ∧ (unlocked.SeqFirst ∧ unlocked.bsy = false) ∧
    (erasing.cfg.Ok ∧ erasing.Calm ∧ erasing.bsy = true ∧ erasing.pend ≠ .none) :=
  ⟨family_ok, by decide, family_ok, by decide⟩

theorem witness_WaitDoneConsumesDoneFlag :
    unlocked.cfg.Ok ∧ unlocked.Calm ∧
    (let s : State := { unlocked with eop := true }
     s.bsy = false ∧ s.eop = true) ∧
    (erasing.Calm ∧ erasing.bsy = true ∧ erasing.pend ≠ .none ∧ (engStep erasing).eop = true) ∧
    (let s : State := { erasing with cfg := guardedPage }
     s.bsy = true ∧ s.pend ≠ .none ∧ (engStep s).eop = false) ∧
    (unlocked.bsy = false ∧ unlocked.pend = .none ∧ unlocked.eop = false) :=
  ⟨family_ok, rfl, by decide, by decide, by decide, by decide⟩

theorem witness_ErasePageErasesOnePage :
    unlocked.UnlockedIdle ∧ unlocked.Calm ∧ inMain unlocked.cfg 0x08003FC0#32 = true ∧
    (0x08003FC0#32).toNat % 64 = 0 ∧
    unlocked.cfg.writeProtected (pageOf unlocked.cfg 0x08003FC0#32) = false :=
  ⟨unlocked_idle, rfl, by decide, by decide, by decide⟩

theorem witness_ErasePageOffTheHappyPath :
    (let s : State := { unlocked with cfg := guardedPage }
     s.UnlockedIdle ∧ s.Calm ∧ inMain s.cfg 0x08003FC0#32 = true ∧ (0x08003FC0#32).toNat % 64 = 0 ∧
      s.cfg.writeProtected (pageOf s.cfg 0x08003FC0#32) = true) ∧
    (unlocked.UnlockedIdle ∧ unlocked.Calm ∧ inMain unlocked.cfg 0x08004000#32 = false ∧
      inMain unlocked.cfg 0x08003FCA#32 = true ∧ (0x08003FCA#32).toNat % 64 ≠ 0) :=
  ⟨⟨guarded_idle, rfl, by decide, by decide, by decide⟩, unlocked_idle, rfl, by decide, by decide,
    by decide⟩

theorem witness_StrayModeBitFaults :
    let s : State := { unlocked with pg := true }
    let u : State := { unlocked with per := true }
    (s.cfg.Ok ∧ s.Calm ∧ s.Rested ∧ s.lock = false ∧ s.OneMode ∧ s.pg = true) ∧
    (u.cfg.Ok ∧ u.Calm ∧ u.Rested ∧ u.lock = false ∧ u.OneMode ∧ u.per = true) :=
  ⟨⟨family_ok, by decide, by decide, by decide, by decide, by decide⟩,
    family_ok, by decide, by decide, by decide, by decide, by decide⟩

theorem witness_ProgramWritesErasedCell :
    blank.UnlockedIdle ∧ blank.Calm ∧ inMain blank.cfg 0x08003FCA#32 = true ∧
    bitOf 0x08003FCA#32 0 = false ∧
    blank.cfg.writeProtected (pageOf blank.cfg 0x08003FCA#32) = false ∧
    blank.mainByte (0x08003FCA#32).toNat = 0xFF#8 ∧
    blank.mainByte ((0x08003FCA#32).toNat + 1) = 0xFF#8 :=
  ⟨blank_idle, rfl, by decide, by decide, by decide, by decide, by decide⟩

theorem witness_ProgramOffTheHappyPath :
    (let s : State := { unlocked with cfg := guardedPage }
     s.UnlockedIdle ∧ s.Calm ∧ inMain s.cfg 0x08003FCA#32 = true ∧ bitOf 0x08003FCA#32 0 = false ∧
      s.cfg.writeProtected (pageOf s.cfg 0x08003FCA#32) = true) ∧
    (let s := unlocked.setMainCell 8165 0x1234#16
     s.UnlockedIdle ∧ s.Calm ∧ inMain s.cfg 0x08003FCA#32 = true ∧
      s.cfg.writeProtected (pageOf s.cfg 0x08003FCA#32) = false ∧
      s.mainByte ((0x08003FCA#32).toNat + 1) ++ s.mainByte (0x08003FCA#32).toNat ≠ 0xFFFF#16) :=
  ⟨⟨guarded_idle, rfl, by decide, by decide, by decide⟩,
    ⟨family_ok, rfl, by decide, by decide⟩, rfl, by decide, by decide, by decide⟩

theorem witness_ProgramFaultsOnBadAddress :
    unlocked.UnlockedIdle ∧ unlocked.Calm ∧ inMain unlocked.cfg 0x08004000#32 = false ∧
    (inMain unlocked.cfg 0x08003FCB#32 = true ∧ bitOf 0x08003FCB#32 0 = true) ∧
    (inMain unlocked.cfg 0x08003FFE#32 = true ∧ bitOf 0x08003FFE#32 0 = false ∧
      inMain unlocked.cfg (0x08003FFE#32 + 2#32) = false) :=
  ⟨unlocked_idle, rfl, by decide, by decide, by decide⟩

/-- The hypotheses of the float statements. -/
theorem witness_ProgramFloatWritesBothHalves :
    blank.UnlockedIdle ∧ blank.Calm ∧ inMain blank.cfg 0x08003FC4#32 = true ∧
    inMain blank.cfg (0x08003FC4#32 + 2#32) = true ∧ bitOf 0x08003FC4#32 0 = false ∧
    blank.cfg.writeProtected (pageOf blank.cfg 0x08003FC4#32) = false ∧
    blank.cfg.writeProtected (pageOf blank.cfg (0x08003FC4#32 + 2#32)) = false ∧
    blank.mainByte (0x08003FC4#32).toNat = 0xFF#8 ∧
    blank.mainByte ((0x08003FC4#32).toNat + 1) = 0xFF#8 ∧
    blank.mainByte (0x08003FC4#32 + 2#32).toNat = 0xFF#8 ∧
    blank.mainByte ((0x08003FC4#32 + 2#32).toNat + 1) = 0xFF#8 :=
  ⟨blank_idle, rfl, by decide, by decide, by decide, by decide, by decide, by decide, by decide,
    by decide, by decide⟩

theorem witness_ReadFloatAssemblesBothHalves :
    stored.cfg.Ok ∧ stored.Calm ∧ inMain stored.cfg 0x08004000#32 = false ∧
    (inMain stored.cfg 0x08003FC5#32 = true ∧ bitOf 0x08003FC5#32 0 = true) ∧
    (inMain stored.cfg 0x08003FFE#32 = true ∧ bitOf 0x08003FFE#32 0 = false ∧
      inMain stored.cfg (0x08003FFE#32 + 2#32) = false) ∧
    (inMain stored.cfg 0x08003FFC#32 = true ∧ inMain stored.cfg (0x08003FFC#32 + 2#32) = true ∧
      bitOf 0x08003FFC#32 0 = false ∧ affected stored.pend (mainCellOf stored.cfg 0x08003FFC#32) = false) ∧
    (programming.cfg.Ok ∧ programming.Calm ∧
      affected programming.pend (mainCellOf programming.cfg 0x08003FCA#32) = true) :=
  ⟨family_ok, rfl, by decide, by decide, by decide, by decide, family_ok, rfl, by decide⟩

theorem witness_FloatRoundTrip :
    blank.UnlockedIdle ∧ blank.Calm ∧ inMain blank.cfg 0x08003FC4#32 = true ∧
    inMain blank.cfg (0x08003FC4#32 + 2#32) = true ∧ bitOf 0x08003FC4#32 0 = false ∧
    blank.cfg.writeProtected (pageOf blank.cfg 0x08003FC4#32) = false ∧
    blank.cfg.writeProtected (pageOf blank.cfg (0x08003FC4#32 + 2#32)) = false ∧
    blank.mainByte (0x08003FC4#32).toNat = 0xFF#8 ∧
    blank.mainByte ((0x08003FC4#32).toNat + 1) = 0xFF#8 ∧
    blank.mainByte (0x08003FC4#32 + 2#32).toNat = 0xFF#8 ∧
    blank.mainByte ((0x08003FC4#32 + 2#32).toNat + 1) = 0xFF#8 :=
  witness_ProgramFloatWritesBothHalves

theorem witness_CellCommandsFollowCode : erasing.SeqFirst := by decide

/-- The last clauses: a word that encodes no byte, and words that encode one. -/
theorem witness_CellCodeLaws :
    (∀ b, 0x1234#16 ≠ encodeCell b) ∧ encodeCell 0x12#8 = 0xED12#16 :=
  ⟨(by
    intro b h
    have h1 := congrArg lowByte h
    have h2 := congrArg highByte h
    rw [show lowByte (encodeCell b) = b by
      simp only [lowByte, encodeCell]; exact BitVec.extractLsb'_append_eq_right] at h1
    subst h1
    revert h2
    decide), by decide⟩

/-- A word that is not valid, and ENG about to store one as it is. -/
theorem witness_ValidCellsAreEncodedBytes :
    validCell 0x1234#16 = false ∧
    (let s : State := { obProgramming with ob := OptionBytes.erased, pend := .obProg .data1 0x1234#16 }
     s.Safe ∧ s.pend = .obProg .data1 0x1234#16 ∧ s.cfg.obStoreAutocomplement = false ∧
     s.ob.cell .data1 = 0xFFFF#16) := by decide

theorem witness_FieldReadsReturnDecodedCell :
    fields.SeqFirst ∧ ¬fields.UnderOb .user ∧ obErasing.SeqFirst ∧ obErasing.UnderOb .user ∧
    obProgramming.UnderOb .data1 ∧ ¬obProgramming.UnderOb .data0 :=
  ⟨by decide, (by rintro (h | ⟨v, h⟩) <;> cases h), by decide, .inl rfl, .inr ⟨0xED12#16, rfl⟩,
    (by rintro (h | ⟨v, h⟩) <;> cases h)⟩

/-- No cell under an operation, one of the two, and both. -/
theorem witness_ReadData16JoinsBothFields :
    (fields.Calm ∧ obAffected fields.pend .data1 = false) ∧
    (obProgramming.Calm ∧ obAffected obProgramming.pend .data1 = true ∧
      obAffected obProgramming.pend .data0 = false) ∧
    (obErasing.Calm ∧ obAffected obErasing.pend .data0 = true) := by decide

theorem witness_WriteObRewritesBlock :
    (bothOpen.UnlockedIdle ∧ bothOpen.Calm ∧ bothOpen.obl = false) ∧
    (unlocked.UnlockedIdle ∧ unlocked.Calm ∧ unlocked.obl = true) :=
  ⟨⟨bothOpen_idle, rfl, rfl⟩, unlocked_idle, rfl, rfl⟩

theorem witness_WriteObPreservesOtherFields :
    bothOpen.UnlockedIdle ∧ bothOpen.Calm ∧ bothOpen.obl = false ∧ validCell bothOpen.ob.user = true ∧
    validCell bothOpen.ob.rdpr = true ∧ validCell bothOpen.ob.wrpr1 = true ∧
    validCell bothOpen.ob.wrpr0 = true :=
  ⟨bothOpen_idle, rfl, rfl, by decide, by decide, by decide, by decide⟩

end Sys2Proof.Tests
end

section
/-! PROOFS. The cell code (spec R99, R35), and what ENG's step leaves in an option cell (R135). -/

namespace Sys2Proof.Machine

/-! ## The cell code (R99) -/

@[simp] theorem lowByte_encodeCell (b : Byte) : lowByte (encodeCell b) = b :=
  BitVec.extractLsb'_append_eq_right

@[simp] theorem highByte_encodeCell (b : Byte) : highByte (encodeCell b) = ~~~b :=
  BitVec.extractLsb'_append_eq_left

/-- The low byte of a cell tells which byte was encoded. -/
theorem encodeCell_injective {b c : Byte} (h : encodeCell b = encodeCell c) : b = c := by
  simpa using congrArg lowByte h

/-! ## Valid cells (R35) -/

theorem validCell_iff (w : Half) : validCell w = true ↔ highByte w = ~~~(lowByte w) :=
  decide_eq_true_iff

theorem validCell_encodeCell (b : Byte) : validCell (encodeCell b) = true := by
  simp [validCell_iff]

/-- A valid cell is the encoding of its own low byte. -/
theorem encodeCell_lowByte_of_valid {w : Half} (h : validCell w = true) :
    encodeCell (lowByte w) = w :=
  calc encodeCell (lowByte w)
      _ = highByte w ++ lowByte w := by rw [encodeCell, ← (validCell_iff w).mp h]
      _ = w := highByte_append_lowByte w

/-- The valid cells are the encoded bytes, one for each byte. -/
theorem validCell_iff_encodes_one_byte (w : Half) :
    validCell w = true ↔ ∃ b, w = encodeCell b ∧ ∀ c, w = encodeCell c → c = b := by
  constructor
  · intro h
    have hw : w = encodeCell (lowByte w) := (encodeCell_lowByte_of_valid h).symm
    exact ⟨lowByte w, hw, fun c hc => encodeCell_injective (hc.symm.trans hw)⟩
  · rintro ⟨b, rfl, -⟩
    exact validCell_encodeCell b

/-- The codec reads a cell that is not valid as 0 (R206). -/
theorem decodeCell_of_not_valid {w : Half} (h : validCell w = false) : decodeCell w = 0#8 := by
  have hne : ¬ ~~~(highByte w) = lowByte w := by
    intro e
    have hv : validCell w = true := by simp [validCell_iff, ← e]
    simp [hv] at h
  exact if_neg hne

/-! ## Storing an option cell (R135) -/

/-- An option cell written reads back. -/
@[simp] theorem cell_set_same (o : OptionBytes) (c : CellId) (w : Half) : (o.set c w).cell c = w := by
  cases c <;> rfl

/-- Without `OB_STORE_AUTOCOMPLEMENT` the word to store is the one given (D28). -/
theorem storedWord_as_given {c : Config} (h : c.obStoreAutocomplement = false) (w : Half) :
    storedWord c w = w := by
  simp [storedWord, h]

/-- ENG completes the program of an erased option cell by storing the word R135 gives. -/
theorem engStep_cell_of_erased {s : State} {c : CellId} {w : Half} (hp : s.pend = .obProg c w)
    (he : s.ob.cell c = erased16) : (engStep s).ob.cell c = storedWord s.cfg w := by
  simp [engStep, hp, finishPending, completeObProg, he]

/-- Settles O56: the cell code gives the first four clauses, ENG's completion on an erased cell the last. -/
theorem validCellsAreEncodedBytes : Obligations.ValidCellsAreEncodedBytes := by
  refine ⟨validCell_iff, validCell_iff_encodes_one_byte, by decide,
    fun w => decodeCell_of_not_valid, ?_⟩
  intro s c w hsafe hpend hauto herased
  refine ⟨engStep s, agentStep_safe hsafe .eng, ?_⟩
  rw [engStep_cell_of_erased hpend herased, storedWord_as_given hauto]

end Sys2Proof.Machine
end

section
/-! PROOFS. ENG's completion of the two erases (spec R132, R134, R136). -/

namespace Sys2Proof.Machine

/-- With no fault marked ENG's step is its completion (R136, R138). -/
theorem agentStep_eng {s : State} (h : s.Safe) : agentStep .eng s = .next (engStep s) :=
  agentStep_safe h .eng

/-- A completion that is not refused sets `EOP` and ends with `Finish()` (R132 to R136). -/
def succeed (t : State) : State := finishPending { t with eop := true }

@[simp] theorem succeed_ob (t : State) : (succeed t).ob = t.ob := rfl

@[simp] theorem mainByte_succeed (t : State) (b : Nat) : (succeed t).mainByte b = t.mainByte b :=
  mainByte_congr rfl b

@[simp] theorem mainCell_succeed (t : State) (i : Nat) : (succeed t).mainCell i = t.mainCell i :=
  mainCell_congr rfl rfl i

/-- A completed write of main cells changes main flash, `EOP` and what `Finish()` clears. -/
theorem succeed_setMainCells_frame (s : State) (i : Nat) (ws : List Half) :
    succeed (s.setMainCells i ws) =
      { s with
        eop := true, pend := .none, bsy := false, strt := false
        main := (succeed (s.setMainCells i ws)).main } :=
  rfl

/-! ## The page erase (R132) -/

/-- A page erased is the write of erased cells from its first cell on. -/
def State.erasedPage (s : State) (p : Nat) : State :=
  s.setMainCells (pageCells * p) (List.replicate pageCells erased16)

/-- The cells of an erased page are erased. -/
theorem mainCell_erasedPage (s : State) {p i : Nat} (hlo : pageCells * p ≤ i)
    (hhi : i < pageCells * p + pageCells) : (s.erasedPage p).mainCell i = erased16 := by
  obtain ⟨k, rfl⟩ := Nat.exists_eq_add_of_le hlo
  have hk : k < (List.replicate pageCells erased16).length := by
    rw [List.length_replicate]; omega
  rw [State.erasedPage, mainCell_setMainCells s _ k _ hk, List.getElem_replicate]

/-- An erase of a page leaves the bytes outside it alone. -/
theorem mainByte_erasedPage_ne (s : State) {p b : Nat}
    (h : b < cellAddr s.cfg (pageCells * p) ∨ cellAddr s.cfg (pageCells * p) + 2 * pageCells ≤ b) :
    (s.erasedPage p).mainByte b = s.mainByte b :=
  mainByte_setMainCells_ne s _ (by rwa [List.length_replicate])

/-- On a protected page ENG sets `WRPRTERR` and erases nothing. -/
theorem engStep_erase_of_protected {s : State} {p : Nat} (hp : s.pend = .erase p)
    (hw : s.cfg.writeProtected p = true) :
    engStep s = finishPending { s with wrprterr := true } := by
  simp only [engStep, hp, completeErase, hw, if_true]

/-- On any other page ENG erases the page and sets `EOP`. -/
theorem engStep_erase_of_unprotected {s : State} {p : Nat} (hp : s.pend = .erase p)
    (hw : s.cfg.writeProtected p = false) :
    engStep s = succeed (s.erasedPage p) := by
  simp only [engStep, hp, completeErase, hw, Bool.false_eq_true, if_false, State.erasedPage, succeed]

/-- Settles O31: a protected page takes `WRPRTERR` alone; another is erased, with nothing written outside. -/
theorem engineErasesPage : Obligations.EngineErasesPage := by
  intro s p hsafe hpend
  constructor
  · intro hprot
    rw [agentStep_eng hsafe, engStep_erase_of_protected hpend hprot]
    rfl
  · intro hopen
    refine ⟨succeed (s.erasedPage p), ?_, succeed_setMainCells_frame s _ _, ?_, ?_⟩
    · rw [agentStep_eng hsafe, engStep_erase_of_unprotected hpend hopen]
    · intro i hlo hhi
      rw [mainCell_succeed]
      exact mainCell_erasedPage s hlo (Nat.lt_succ_of_le hhi)
    · intro b hb
      rw [mainByte_succeed]
      exact mainByte_erasedPage_ne s hb

/-! ## The option-block erase (R134) -/

/-- Every cell of the erased block is erased (D29). -/
@[simp] theorem cell_erased (c : CellId) : OptionBytes.erased.cell c = erased16 := by
  cases c <;> rfl

/-- An erased cell is not valid: its high byte is not the inverse of its low byte. -/
theorem validCell_erased16 : validCell erased16 = false := by decide

/-- ENG completes an option-block erase by erasing all six cells, whatever pages are protected. -/
theorem engStep_obErase {s : State} (hp : s.pend = .obErase) :
    engStep s = succeed { s with ob := .erased } := by
  simp only [engStep, hp, completeObErase, succeed]

/-- Settles O33: the six cells of the erased block are 0xFFFF, which is not valid and so decodes to 0. -/
theorem engineErasesOptionBlock : Obligations.EngineErasesOptionBlock := by
  intro s hsafe hpend
  refine ⟨succeed { s with ob := .erased }, ?_, rfl, ?_⟩
  · rw [agentStep_eng hsafe, engStep_obErase hpend]
  · intro c
    rw [succeed_ob, cell_erased]
    exact ⟨rfl, validCell_erased16, decodeCell_of_not_valid validCell_erased16⟩

end Sys2Proof.Machine
end

section
/-! PROOFS. The command word: its three fields, the opcode map, and the reserved opcodes (spec R91 to R93, R102). -/

namespace Sys2Proof

@[simp] theorem opField_encode (i : Instr) : opField (encode i) = i.op.code :=
  (fields_append i.op.code i.a i.d).1

@[simp] theorem aField_encode (i : Instr) : aField (encode i) = i.a :=
  (fields_append i.op.code i.a i.d).2.1

@[simp] theorem dField_encode (i : Instr) : dField (encode i) = i.d :=
  (fields_append i.op.code i.a i.d).2.2

/-- A command is the one its name and its operands make. -/
@[simp] theorem Instr.op_instr_self (i : Instr) : i.op.instr i.a i.d = i := (Laws.Rebuilt.all i).1

/-- A word whose opcode names a command decodes to it, whatever its operands (R92). -/
theorem decode_of_ofCode {w : CommandWord} {op : Op} (h : Op.ofCode (opField w) = some op) :
    decode w = .ok (op.instr (aField w) (dField w)) := by
  simp only [decode, h]

/-- A word whose opcode names none does not decode (R102). -/
theorem decode_of_ofCode_none {w : CommandWord} (h : Op.ofCode (opField w) = none) :
    decode w = .error (.reservedOpcode (opField w)) := by
  simp only [decode, h]

theorem decode_encode (i : Instr) : decode (encode i) = .ok i := by
  rw [decode_of_ofCode (op := i.op) (by simp)]
  simp

/-- The opcode map has no two opcodes for one name (R93). -/
theorem Op.code_of_ofCode {c : BitVec 8} {op : Op} (h : Op.ofCode c = some op) : op.code = c := by
  unfold Op.ofCode at h
  split at h <;> cases h <;> rename_i hc <;> exact BitVec.eq_of_toNat_eq hc.symm

/-- The reserved opcodes are those no command has. -/
theorem Op.ofCode_eq_none_iff (c : BitVec 8) : Op.ofCode c = none ↔ ∀ op : Op, op.code ≠ c := by
  constructor
  · rintro h op rfl
    simp at h
  · intro h
    cases hc : Op.ofCode c with
    | none => rfl
    | some op => exact absurd (Op.code_of_ofCode hc) (h op)

/-- A word is refused just when its opcode is reserved (R102). -/
theorem decode_reserved_iff (w : CommandWord) :
    decode w = .error (.reservedOpcode (opField w)) ↔ Op.ofCode (opField w) = none := by
  constructor
  · intro h
    cases hc : Op.ofCode (opField w) with
    | none => rfl
    | some op => rw [decode_of_ofCode hc] at h; cases h
  · exact decode_of_ofCode_none

/-- A word that decodes is the word of its command. -/
theorem encode_of_decode {w : CommandWord} {i : Instr} (h : decode w = .ok i) : encode i = w := by
  cases hc : Op.ofCode (opField w) with
  | none => rw [decode_of_ofCode_none hc] at h; cases h
  | some op =>
    rw [decode_of_ofCode hc] at h
    cases h
    simp only [encode, Op.op_instr, Op.a_instr, Op.d_instr, Op.code_of_ofCode hc, append_fields]

/-- Settles O1: the fields of the word are the opcode and the operands, and the opcode names the command. -/
theorem decodeOfEncode : Obligations.DecodeOfEncode := decode_encode

/-- Settles O2: a word is its three fields, and the opcode is that of the name it stands for. -/
theorem encodeOfDecode : Obligations.EncodeOfDecode := fun _ _ => encode_of_decode

/-- Settles O4. -/
theorem decodedSampleWords : Obligations.DecodedSampleWords := by
  unfold Obligations.DecodedSampleWords
  decide

end Sys2Proof
end

section
/-! PROOFS. The step that meets a command word (spec R90, R102, R138). -/

namespace Sys2Proof.Machine

/-- The step with the port ready and no order left: HOST moves when it has an action (R138). -/
theorem step_calm {s : State} (hf : s.Safe) (hq : s.seqOp = none) (ht : s.turns = [])
    (hh : s.host ≠ []) : step s = hostMove s := by
  simp only [step, blockStep, hf, hq, idleMove, ht, if_neg hh]

/-- The step with the port ready and HOST named first. -/
theorem step_host_turn {s : State} {ts : List Agent} (hf : s.Safe) (hq : s.seqOp = none)
    (ht : s.turns = .host :: ts) : step s = hostMove { s with turns := ts } := by
  simp only [step, blockStep, hf, hq, idleMove, ht]

/-- HOST's move on a word that decodes is the run of its command. -/
theorem hostMove_command {s : State} {w : CommandWord} {rest : List HostAction} {i : Instr}
    (hh : s.host = .command w :: rest) (hw : decode w = .ok i) :
    hostMove s = exec i { s with host := rest } := by
  simp only [hostMove, hh, hw]

/-- HOST's move on a word that does not decode is a refusal (R102). -/
theorem hostMove_refused {s : State} {w : CommandWord} {rest : List HostAction} {e : DecodeError}
    (hh : s.host = .command w :: rest) (hw : decode w = .error e) :
    hostMove s = .refused .illegalCommand := by
  simp only [hostMove, hh, hw]

theorem hostMove_reset {s : State} {rest : List HostAction} (hh : s.host = .reset :: rest) :
    hostMove s = .next (resetStep { s with host := rest }) := by
  simp only [hostMove, hh]

/-- Settles O3: the decoder refuses what the opcode map leaves out, and the step follows the decoder. -/
theorem reservedOpcodesRefused : Obligations.ReservedOpcodesRefused := by
  refine ⟨?_, by decide +kernel, ⟨_, rfl⟩, ⟨_, rfl⟩, ?_⟩
  · intro w
    rw [decode_reserved_iff, Op.ofCode_eq_none_iff]
  · intro s w rest hsafe hidle hcalm hhost hreserved
    have hw := decode_of_ofCode_none ((Op.ofCode_eq_none_iff _).2 hreserved)
    rw [step_calm hsafe hidle hcalm (by simp [hhost]), hostMove_refused hhost hw]

/-- Settles O6: the step is HOST's move, whether no order is left or the order names HOST. -/
theorem stepRunsDecodedCommand : Obligations.StepRunsDecodedCommand := by
  intro s w rest i hsafe hidle hhost hdec
  constructor
  · intro hcalm
    rw [step_calm hsafe hidle hcalm (by simp [hhost]), hostMove_command hhost hdec]
  · intro ts hturns
    rw [step_host_turn hsafe hidle hturns, hostMove_command (s := { s with turns := ts }) hhost hdec]

end Sys2Proof.Machine
end

section
/-! PROOFS. What one micro-step of SEQ can do, for every command (spec R137, R138), and what follows from it for
the cells, the locks and a locked block. -/

namespace Sys2Proof.Machine

/-! ## Facts about every micro-step of a micro-program -/

/-- `P` holds of each micro-step of a list with its index, the first index being `k`. -/
def EachStep (P : Nat → MicroStep → Prop) : Nat → List MicroStep → Prop
  | _, [] => True
  | k, m :: ms => P k m ∧ EachStep P (k + 1) ms

theorem EachStep.get {P : Nat → MicroStep → Prop} {ms : List MicroStep} {j k : Nat} {m : MicroStep}
    (h : EachStep P j ms) (hm : ms[k]? = some m) : P (j + k) m := by
  induction ms generalizing j k with
  | nil => simp at hm
  | cons m' ms ih =>
    cases k with
    | zero => cases hm; exact h.1
    | succ k =>
      have := ih h.2 (k := k) (by simpa using hm)
      rwa [show j + 1 + k = j + (k + 1) by omega] at this

/-- The longest micro-program has twenty-five micro-steps (R22), and none is empty. -/
theorem length_progOf (op : Op) : 0 < (progOf op).length ∧ (progOf op).length ≤ 25 := by
  cases op <;> decide

/-! ## The effects -/

/-- What the micro-step `m` at index `k` of command `op` can do to `s`, where it answers `t`: it writes sequencer
registers and counts draws, leaves the command (a guard), stays where it is (a poll in vain), or is one of the
register and cell writes of R121 to R131. -/
inductive Effect (op : Op) (m : MicroStep) (k n : Nat) (s t : State) : Prop
  | registers (h : t = { s with
      ra := t.ra, rd := t.rd, rt := t.rt, res := t.res, rs0 := t.rs0, rs1 := t.rs1, rs2 := t.rs2
      rs3 := t.rs3, rb1 := t.rb1, rb0 := t.rb0, draws := t.draws })
  | leaves (h : t = { s with rt := ctlrWord s, spc := n })
  | polls (hm : m = spinNotBusy ∨ op = .waitDone ∧ m = spinDone)
      (hv : bitOf (statrWord s) s.cfg.bsyBit = true ∨
        op = .waitDone ∧ bitOf (statrWord s) s.cfg.eopBit = false)
      (h : t = { s with rt := statrWord s, spc := k })
  | statr (v : Word) (h : t = regWriteStatr v s)
  | keyr (v : Word) (h : t = regWriteKeyr v s)
      (hv : op = .wrKeyr ∧ v = s.rd ∨
        op = .unlock ∧ (k = 0 ∧ v = s.cfg.key1 ∨ k = 1 ∧ v = s.cfg.key2))
  | obkeyr (v : Word) (h : t = regWriteObkeyr v s)
      (hv : op = .wrObkeyr ∧ v = s.rd ∨
        op = .unlockOb ∧ (k = 0 ∧ v = s.cfg.obKey1 ∨ k = 1 ∧ v = s.cfg.obKey2))
  | ctlr (v : Word) (h : regWriteCtlr v s = .ok t)
  | addr (v : Word) (h : regWriteAddr v s = .ok t)
  | store (a : Word) (v : Half) (h : memWrite16 a v s = .ok t)
  | obStore (c : CellId) (v : Half) (h : writeOb c v s = .ok t)

/-- All that a micro-step can do is an effect. -/
def HasEffect (op : Op) (k : Nat) (m : MicroStep) : Prop :=
  ∀ n s t, m k n s = .ok t → Effect op m k n s t

/-! ### The shared micro-steps -/

/-- A micro-step that only writes sequencer registers. -/
theorem hasEffect_act {op : Op} {k : Nat} {f : State → State}
    (h : ∀ s, f s = { s with
      ra := (f s).ra, rd := (f s).rd, rt := (f s).rt, res := (f s).res, rs0 := (f s).rs0
      rs1 := (f s).rs1, rs2 := (f s).rs2, rs3 := (f s).rs3, rb1 := (f s).rb1, rb0 := (f s).rb0
      draws := (f s).draws }) : HasEffect op k (act f) := by
  intro n s t ht
  cases ht
  exact .registers (h s)

theorem hasEffect_guardLock (op : Op) (k : Nat) : HasEffect op k guardLock := by
  intro n s t ht
  cases ht
  cases hl : bitOf (ctlrWord s) s.cfg.lockBit
  · simpa [regReadCtlr, hl] using Effect.registers rfl
  · simpa [regReadCtlr, hl] using Effect.leaves rfl

theorem hasEffect_spinNotBusy (op : Op) (k : Nat) : HasEffect op k spinNotBusy := by
  intro n s t ht
  cases ht
  cases hb : bitOf (statrWord s) s.cfg.bsyBit
  · simpa [regReadStatr, hb] using Effect.registers rfl
  · simpa [regReadStatr, hb] using Effect.polls (.inl rfl) (.inl hb) rfl

theorem hasEffect_spinDone (k : Nat) : HasEffect .waitDone k spinDone := by
  intro n s t ht
  cases ht
  cases hb : bitOf (statrWord s) s.cfg.bsyBit
  · cases he : bitOf (statrWord s) s.cfg.eopBit
    · simpa [regReadStatr, hb, he] using Effect.polls (.inr ⟨rfl, rfl⟩) (.inr ⟨rfl, he⟩) rfl
    · simpa [regReadStatr, hb, he] using Effect.registers rfl
  · simpa [regReadStatr, hb] using Effect.polls (.inr ⟨rfl, rfl⟩) (.inl hb) rfl

theorem hasEffect_ctlrSet (op : Op) (k : Nat) (bit : Config → Nat) : HasEffect op k (ctlrSet bit) :=
  fun _ _ _ ht => .ctlr _ ht

theorem hasEffect_ctlrClr (op : Op) (k : Nat) (bit : Config → Nat) : HasEffect op k (ctlrClr bit) :=
  fun _ _ _ ht => .ctlr _ ht

theorem hasEffect_storeHalf (op : Op) (k : Nat) : HasEffect op k storeHalf :=
  fun _ _ _ ht => .store _ _ ht

theorem hasEffect_writeOb (op : Op) (k : Nat) (c : CellId) (v : State → Half) :
    HasEffect op k (actOrFault fun s => writeOb c (v s) s) :=
  fun _ _ _ ht => .obStore _ _ ht

theorem hasEffect_clearDone (op : Op) (k : Nat) : HasEffect op k clearDone :=
  fun _ _ _ ht => .statr _ (Except.ok.inj ht).symm

/-- A state that differs at most in the count of draws. -/
theorem eq_with_draws {s t : State} (h : t = s ∨ t = s.drawn 1) : t = { s with draws := t.draws } := by
  rcases h with rfl | rfl <;> rfl

theorem hasEffect_loadByte (op : Op) (k : Nat) : HasEffect op k loadByte := by
  intro n s t ht
  simp only [loadByte, actOrFault] at ht
  split at ht <;> cases ht
  rename_i hr
  rw [eq_with_draws (memRead8_cases hr).2]
  exact .registers rfl

/-- A micro-step that reads a main cell and puts the value in a sequencer register. -/
theorem hasEffect_memRead16 (op : Op) (k : Nat) (a : State → Word) (f : Half → State → State)
    (hf : ∀ v s, f v s = { s with rt := (f v s).rt, res := (f v s).res }) :
    HasEffect op k (actOrFault fun s =>
      match memRead16 (a s) s with
      | .error e => .error e
      | .ok (v, s) => .ok (f v s)) := by
  intro n s t ht
  simp only [actOrFault] at ht
  split at ht <;> cases ht
  rename_i hr
  rw [hf, eq_with_draws (memRead16_cases hr).2.2]
  exact .registers rfl

theorem hasEffect_loadHalf (op : Op) (k : Nat) : HasEffect op k loadHalf :=
  hasEffect_memRead16 op k _ (fun v s => { s with res := zextHalf v }) fun _ _ => rfl

/-- A micro-step that reads an option cell and puts the value in a sequencer register. -/
theorem hasEffect_readOb (op : Op) (k : Nat) (c : CellId) (f : State → Half → State → State)
    (hf : ∀ u v s, f u v s = { s with
      rt := (f u v s).rt, res := (f u v s).res, rs0 := (f u v s).rs0, rs1 := (f u v s).rs1
      rs2 := (f u v s).rs2, rs3 := (f u v s).rs3 }) :
    HasEffect op k (act fun s => f s (readOb c s).1 (readOb c s).2) := by
  intro n s t ht
  cases ht
  show Effect _ _ _ _ _ (f s (readOb c s).1 (readOb c s).2)
  rw [hf, eq_with_draws (readOb_state c s)]
  exact .registers rfl

theorem hasEffect_readField (op : Op) (k : Nat) (c : CellId) : HasEffect op k (readField c) :=
  hasEffect_readOb op k c (fun _ v s => { s with res := zextByte (decodeCell v) }) fun _ _ _ => rfl

theorem hasEffect_readFlag (op : Op) (k : Nat) (bit : Config → Nat) : HasEffect op k (readFlag bit) :=
  hasEffect_act fun _ => rfl

/-! ### The commands -/

/-- The six micro-steps of `program_16`, from any index on. -/
theorem effects_program16Steps (op : Op) (k : Nat) : EachStep (HasEffect op) k program16Steps :=
  ⟨hasEffect_guardLock _ _, hasEffect_spinNotBusy _ _, hasEffect_ctlrSet _ _ _, hasEffect_storeHalf _ _,
    hasEffect_spinNotBusy _ _, hasEffect_ctlrClr _ _ _, trivial⟩

/-- The twenty-five micro-steps of an option write. -/
theorem effects_writeObSteps (op : Op) : EachStep (HasEffect op) 0 writeObSteps :=
  ⟨hasEffect_guardLock _ _, hasEffect_spinNotBusy _ _,
    hasEffect_readOb _ _ _ (fun _ v s => { s with rs0 := v }) fun _ _ _ => rfl,
    hasEffect_readOb _ _ _ (fun _ v s => { s with rs1 := v }) fun _ _ _ => rfl,
    hasEffect_readOb _ _ _ (fun _ v s => { s with rs2 := v }) fun _ _ _ => rfl,
    hasEffect_readOb _ _ _ (fun _ v s => { s with rs3 := v }) fun _ _ _ => rfl,
    hasEffect_act fun _ => rfl, hasEffect_ctlrSet _ _ _, hasEffect_ctlrSet _ _ _,
    hasEffect_spinNotBusy _ _, hasEffect_ctlrClr _ _ _, hasEffect_ctlrSet _ _ _,
    hasEffect_writeOb _ _ _ _, hasEffect_spinNotBusy _ _, hasEffect_writeOb _ _ _ _,
    hasEffect_spinNotBusy _ _, hasEffect_writeOb _ _ _ _, hasEffect_spinNotBusy _ _,
    hasEffect_writeOb _ _ _ _, hasEffect_spinNotBusy _ _, hasEffect_writeOb _ _ _ _,
    hasEffect_spinNotBusy _ _, hasEffect_writeOb _ _ _ _, hasEffect_spinNotBusy _ _,
    hasEffect_ctlrClr _ _ _, trivial⟩

/-- LDOB reads the cell its operand names. -/
theorem hasEffect_ldob (k : Nat) : EachStep (HasEffect .ldob) k progLdob := by
  refine ⟨?_, trivial⟩
  intro n s t ht
  simp only [actOrFault, obRead] at ht
  cases hc : cellOf (cellOperand s.ra) with
  | none => simp [hc] at ht
  | some c =>
    simp only [hc] at ht
    cases ht
    rw [eq_with_draws (readOb_state c s)]
    exact .registers rfl

/-- STOB stores to the cell its operand names. -/
theorem hasEffect_stob (k : Nat) : EachStep (HasEffect .stob) k progStob := by
  refine ⟨?_, trivial⟩
  intro n s t ht
  simp only [actOrFault, obWrite] at ht
  cases hc : cellOf (cellOperand s.ra) with
  | none => simp [hc] at ht
  | some c => simp only [hc] at ht; exact .obStore _ _ ht

/-- Every micro-step of every command has one of the effects. -/
theorem effects_progOf (op : Op) : EachStep (HasEffect op) 0 (progOf op) := by
  cases op with
  | rdStatr | rdCtlr | calcAddr | decodeCell | encodeCell => exact ⟨hasEffect_act fun _ => rfl, trivial⟩
  | wrStatr => exact ⟨fun _ _ _ ht => .statr _ (Except.ok.inj ht).symm, trivial⟩
  | wrCtlr => exact ⟨fun _ _ _ ht => .ctlr _ ht, trivial⟩
  | wrKeyr => exact ⟨fun _ _ _ ht => .keyr _ (Except.ok.inj ht).symm (.inl ⟨rfl, rfl⟩), trivial⟩
  | wrObkeyr => exact ⟨fun _ _ _ ht => .obkeyr _ (Except.ok.inj ht).symm (.inl ⟨rfl, rfl⟩), trivial⟩
  | wrAddr => exact ⟨fun _ _ _ ht => .addr _ ht, trivial⟩
  | ld8 | read8 => exact ⟨hasEffect_loadByte _ _, trivial⟩
  | ld16 | read16 => exact ⟨hasEffect_loadHalf _ _, trivial⟩
  | st16 => exact ⟨hasEffect_storeHalf _ _, trivial⟩
  | ldob => exact hasEffect_ldob 0
  | stob => exact hasEffect_stob 0
  | unlock =>
    exact ⟨fun _ _ _ ht => .keyr _ (Except.ok.inj ht).symm (.inr ⟨rfl, .inl ⟨rfl, rfl⟩⟩),
      fun _ _ _ ht => .keyr _ (Except.ok.inj ht).symm (.inr ⟨rfl, .inr ⟨rfl, rfl⟩⟩), trivial⟩
  | unlockOb =>
    exact ⟨fun _ _ _ ht => .obkeyr _ (Except.ok.inj ht).symm (.inr ⟨rfl, .inl ⟨rfl, rfl⟩⟩),
      fun _ _ _ ht => .obkeyr _ (Except.ok.inj ht).symm (.inr ⟨rfl, .inr ⟨rfl, rfl⟩⟩), trivial⟩
  | lock => exact ⟨hasEffect_ctlrSet _ _ _, trivial⟩
  | isBusy | isDone | isWperr => exact ⟨hasEffect_readFlag _ _ _, trivial⟩
  | clearDone => exact ⟨hasEffect_clearDone _ _, trivial⟩
  | waitNotBusy => exact ⟨hasEffect_spinNotBusy _ _, trivial⟩
  | waitDone => exact ⟨hasEffect_spinDone _, hasEffect_clearDone _ _, trivial⟩
  | erasePage =>
    exact ⟨hasEffect_guardLock _ _, hasEffect_spinNotBusy _ _, hasEffect_ctlrSet _ _ _,
      fun _ _ _ ht => .addr _ ht, hasEffect_ctlrSet _ _ _, hasEffect_spinNotBusy _ _,
      hasEffect_ctlrClr _ _ _, trivial⟩
  | program16 | program8x2 => exact effects_program16Steps _ _
  | programFloat =>
    exact ⟨hasEffect_guardLock _ _, hasEffect_spinNotBusy _ _, hasEffect_ctlrSet _ _ _,
      hasEffect_storeHalf _ _, hasEffect_spinNotBusy _ _, hasEffect_ctlrClr _ _ _,
      hasEffect_act fun _ => rfl, effects_program16Steps _ _⟩
  | readFloat =>
    exact ⟨hasEffect_memRead16 _ _ _ (fun v s => { s with rt := zextHalf v }) fun _ _ => rfl,
      hasEffect_memRead16 _ _ _ (fun v s => { s with res := (zextHalf v <<< 16) ||| s.rt })
        fun _ _ => rfl, trivial⟩
  | readUser | readRdpr | readWrpr1 | readWrpr0 | readData1 | readData0 =>
    exact ⟨hasEffect_readField _ _ _, trivial⟩
  | readData16 =>
    exact ⟨hasEffect_readOb _ _ _ (fun _ v s => { s with rt := zextByte (decodeCell v) }) fun _ _ _ => rfl,
      hasEffect_readOb _ _ _ (fun u v s => { s with res := (u.rt <<< 8) ||| zextByte (decodeCell v) })
        fun _ _ _ => rfl, trivial⟩
  | writeOb16 | writeOb8x2 => exact effects_writeObSteps _

theorem hasEffect_of_get {op : Op} {k : Nat} {m : MicroStep} (h : (progOf op)[k]? = some m) :
    HasEffect op k m := by
  have heff := (effects_progOf op).get h
  rwa [Nat.zero_add] at heff

/-- All that SEQ's step can do: the micro-step at `SPC` has its effect, and the command ends or not; a command
whose `SPC` stands at END just ends. -/
theorem seqStep_effect {op : Op} {s t : State} (h : seqStep op (progOf op) s = .ok t) :
    ((progOf op).length ≤ s.spc ∧ t = s.finish op) ∨
    ∃ m u, s.spc < (progOf op).length ∧
      Effect op m s.spc (progOf op).length { s with spc := s.spc + 1 } u ∧
      (t = u.finish op ∧ (progOf op).length ≤ u.spc ∨ t = u ∧ u.spc < (progOf op).length) := by
  rcases seqStep_cases h with ⟨hn, rfl⟩ | ⟨m, u, hm, hu, he⟩
  · exact .inl ⟨List.getElem?_eq_none_iff.mp hn, rfl⟩
  · obtain ⟨hlt, -⟩ := List.getElem?_eq_some_iff.mp hm
    exact .inr ⟨m, u, hlt, hasEffect_of_get hm _ _ _ hu, he.imp And.symm And.symm⟩

/-- A fact that holds whatever the effect, and that the end of a command does not touch, holds of SEQ's step. -/
theorem seqStep_rule {R : State → State → Prop} {op : Op} {s t : State}
    (h : seqStep op (progOf op) s = .ok t) (hrefl : R s s)
    (heff : ∀ m u, Effect op m s.spc (progOf op).length { s with spc := s.spc + 1 } u → R s u)
    (hfin : ∀ u, R s u → R s (u.finish op)) : R s t := by
  rcases seqStep_effect h with ⟨-, rfl⟩ | ⟨m, u, -, he, ⟨rfl, -⟩ | ⟨rfl, -⟩⟩
  · exact hfin s hrefl
  · exact hfin u (heff m u he)
  · exact heff m t he

/-- SEQ's step of the relation is the step of the command in progress. -/
theorem agentStep_seq {s t : State} (h : agentStep .seq s = .next t) :
    (s.seqOp = none ∧ t = s) ∨ ∃ op, s.seqOp = some op ∧ seqStep op (progOf op) s = .ok t := by
  obtain ⟨-, h⟩ := agentStep_next h
  simp only [agentMove] at h
  split at h
  · rename_i hq
    cases h
    exact .inl ⟨hq, rfl⟩
  · rename_i op hq
    split at h <;> cases h
    rename_i hs
    exact .inr ⟨op, hq, hs⟩

/-! ## What each effect leaves unchanged -/

section
variable {op : Op} {m : MicroStep} {k n : Nat} {s t : State}

/-- A start of an erase writes `PEND`, `BSY` and `STRT` and nothing else (R123). -/
theorem startErase_frame (h : startErase s = .ok t) :
    t = { s with pend := t.pend, bsy := t.bsy, strt := t.strt } := by
  rcases startErase_cases h with rfl | ⟨-, -, -, rfl⟩ | ⟨-, -, -, rfl⟩ <;> rfl

/-- A CTLR write writes the fields of CTLR, `PEND` and `BSY`, and nothing else (R123). -/
theorem regWriteCtlr_frame {v : Word} (h : regWriteCtlr v s = .ok t) :
    t = { s with
      pg := t.pg, per := t.per, obpg := t.obpg, ober := t.ober, lock := t.lock, pend := t.pend
      bsy := t.bsy, strt := t.strt } := by
  obtain ⟨-, ⟨-, rfl⟩ | ⟨-, -, u, rfl, rfl | rfl | hs⟩⟩ := regWriteCtlr_cases h
  · rfl
  · rfl
  · rfl
  · rw [startErase_frame hs]

/-- No effect touches a cell, the parameters, or what stands outside the controller and the sequencer. -/
theorem Effect.keeps (h : Effect op m k n s t) :
    t.main = s.main ∧ t.ob = s.ob ∧ t.cfg = s.cfg ∧ t.seqOp = s.seqOp ∧ t.fault = s.fault ∧
    t.host = s.host ∧ t.turns = s.turns ∧ t.response = s.response := by
  cases h with
  | registers h => rw [h]; simp
  | leaves h => rw [h]; simp
  | polls hm hv h => rw [h]; simp
  | statr v h => rw [h]; simp [regWriteStatr]
  | keyr v h hv => rcases regWriteKeyr_cases v s with e | ⟨-, -, e⟩ <;> rw [h, e] <;> simp
  | obkeyr v h hv => rcases regWriteObkeyr_cases v s with e | ⟨-, -, e⟩ <;> rw [h, e] <;> simp
  | ctlr v h => rw [regWriteCtlr_frame h]; simp
  | addr v h => rw [(regWriteAddr_ok.mp h).2]; simp
  | store a v h => obtain ⟨-, -, -, ⟨-, rfl⟩ | ⟨-, -, rfl⟩⟩ := memWrite16_cases h <;> simp
  | obStore c v h => obtain ⟨-, ⟨-, rfl⟩ | ⟨-, -, -, rfl⟩⟩ := writeOb_cases h <;> simp

end

/-- SEQ's step changes no cell, no parameter and nothing that stands outside the controller and the sequencer. -/
theorem seqStep_keeps {op : Op} {s t : State} (h : seqStep op (progOf op) s = .ok t) :
    t.main = s.main ∧ t.ob = s.ob ∧ t.cfg = s.cfg ∧ t.fault = s.fault ∧ t.host = s.host ∧
    t.turns = s.turns ∧ (t.seqOp = none ∨ t.seqOp = s.seqOp) := by
  refine seqStep_rule (R := fun s t => t.main = s.main ∧ t.ob = s.ob ∧ t.cfg = s.cfg ∧
    t.fault = s.fault ∧ t.host = s.host ∧ t.turns = s.turns ∧ (t.seqOp = none ∨ t.seqOp = s.seqOp))
    h (by simp) ?_ ?_
  · intro m u he
    obtain ⟨hmain, hob, hcfg, hop, hfault, hhost, hturns, -⟩ := he.keeps
    exact ⟨hmain, hob, hcfg, hfault, hhost, hturns, .inr hop⟩
  · rintro u ⟨hmain, hob, hcfg, hfault, hhost, hturns, -⟩
    exact ⟨hmain, hob, hcfg, hfault, hhost, hturns, .inl rfl⟩

/-- Settles O15: a micro-step only records the operation; the cells change at ENG's step. -/
theorem sequencerChangesNoCell : Obligations.SequencerChangesNoCell := by
  intro s t h
  rcases agentStep_seq h with ⟨-, rfl⟩ | ⟨op, -, hs⟩
  · exact ⟨rfl, rfl⟩
  · obtain ⟨hmain, hob, -⟩ := seqStep_keeps hs
    exact ⟨hmain, hob⟩

/-! ## The locks -/

/-- SEQ's micro-step at `SPC` writes its key to the main key register. -/
def WritesMainKey (op : Op) (s : State) : Prop :=
  s.mkFsm = .half ∧ (op = .wrKeyr ∧ s.rd = s.cfg.key2 ∨
    op = .unlock ∧ (s.cfg.key1 = s.cfg.key2 ∨ s.spc = 1))

/-- The same for the option keys. -/
def WritesOptionKey (op : Op) (s : State) : Prop :=
  s.okFsm = .half ∧ (op = .wrObkeyr ∧ s.rd = s.cfg.obKey2 ∨
    op = .unlockOb ∧ (s.cfg.obKey1 = s.cfg.obKey2 ∨ s.spc = 1))

/-- A CTLR write never opens the main lock (R29). -/
theorem regWriteCtlr_keeps_locked {v : Word} {s t : State} (h : regWriteCtlr v s = .ok t)
    (hl : s.lock = true) : t = s := by
  obtain ⟨-, ⟨-, rfl⟩ | ⟨hl', -⟩⟩ := regWriteCtlr_cases h
  · rfl
  · simp [hl] at hl'

/-- The locks open by the keys only, and the option lock does not close. -/
theorem Effect.locks {op : Op} {m : MicroStep} {k n : Nat} {s t : State}
    (h : Effect op m s.spc n { s with spc := k } t) :
    (s.lock = true → t.lock = false → WritesMainKey op s) ∧
    (s.obl = true → t.obl = false → WritesOptionKey op s) ∧ (s.obl = false → t.obl = false) := by
  have of_same : t.lock = s.lock → t.obl = s.obl →
      (s.lock = true → t.lock = false → WritesMainKey op s) ∧
      (s.obl = true → t.obl = false → WritesOptionKey op s) ∧ (s.obl = false → t.obl = false) := by
    intro hl ho
    simp_all
  cases h with
  | registers h => exact of_same (by rw [h]) (by rw [h])
  | leaves h => exact of_same (by rw [h]) (by rw [h])
  | polls hm hv h => exact of_same (by rw [h]) (by rw [h])
  | statr v h => exact of_same (by rw [h]; rfl) (by rw [h]; rfl)
  | keyr v h hv =>
    rcases regWriteKeyr_cases v { s with spc := k } with e | ⟨hhalf, hkey, e⟩
    · exact of_same (by rw [h, e]) (by rw [h, e])
    · refine ⟨fun _ _ => ⟨hhalf, ?_⟩, by rw [h, e]; simp_all, by rw [h, e]; exact id⟩
      rcases hv with ⟨ho, rfl⟩ | ⟨ho, ⟨-, rfl⟩ | ⟨hk, -⟩⟩
      · exact .inl ⟨ho, hkey⟩
      · exact .inr ⟨ho, .inl hkey⟩
      · exact .inr ⟨ho, .inr hk⟩
  | obkeyr v h hv =>
    rcases regWriteObkeyr_cases v { s with spc := k } with e | ⟨hhalf, hkey, e⟩
    · exact of_same (by rw [h, e]) (by rw [h, e])
    · refine ⟨by rw [h, e]; simp_all, fun _ _ => ⟨hhalf, ?_⟩, by rw [h, e]; simp⟩
      rcases hv with ⟨ho, rfl⟩ | ⟨ho, ⟨-, rfl⟩ | ⟨hk, -⟩⟩
      · exact .inl ⟨ho, hkey⟩
      · exact .inr ⟨ho, .inl hkey⟩
      · exact .inr ⟨ho, .inr hk⟩
  | ctlr v h =>
    have ho : t.obl = s.obl := by rw [regWriteCtlr_frame h]
    refine ⟨fun hl ht => ?_, by simp_all, by simp_all⟩
    rw [regWriteCtlr_keeps_locked h hl] at ht
    simp_all
  | addr v h => exact of_same (by rw [(regWriteAddr_ok.mp h).2]) (by rw [(regWriteAddr_ok.mp h).2])
  | store a v h =>
    obtain ⟨-, -, -, ⟨-, rfl⟩ | ⟨-, -, rfl⟩⟩ := memWrite16_cases h <;> exact of_same rfl rfl
  | obStore c v h =>
    obtain ⟨-, ⟨-, rfl⟩ | ⟨-, -, -, rfl⟩⟩ := writeOb_cases h <;> exact of_same rfl rfl

/-- Settles O16: of the effects only the key writes open a lock, each from HALF by its second key. -/
theorem locksOpenOnlyByKeys : Obligations.LocksOpenOnlyByKeys := by
  intro s t h
  rcases agentStep_seq h with ⟨-, rfl⟩ | ⟨op, hop, hs⟩
  · simp_all
  · have hlocks := seqStep_rule (R := fun s t =>
      (s.lock = true → t.lock = false → WritesMainKey op s) ∧
      (s.obl = true → t.obl = false → WritesOptionKey op s) ∧ (s.obl = false → t.obl = false))
      hs (by simp_all) (fun _ _ he => he.locks) (fun _ hu => hu)
    simpa [WritesMainKey, WritesOptionKey, hop] using hlocks

/-- While Locked no effect starts an operation or writes a mode bit (R29, R225). -/
theorem Effect.locked {op : Op} {m : MicroStep} {k n : Nat} {s t : State} (h : Effect op m k n s t)
    (hl : s.lock = true) :
    t.pend = s.pend ∧ t.bsy = s.bsy ∧ t.strt = s.strt ∧ t.pg = s.pg ∧ t.per = s.per ∧
    t.obpg = s.obpg ∧ t.ober = s.ober := by
  cases h with
  | registers h => rw [h]; simp
  | leaves h => rw [h]; simp
  | polls hm hv h => rw [h]; simp
  | statr v h => rw [h]; simp [regWriteStatr]
  | keyr v h hv => rcases regWriteKeyr_cases v s with e | ⟨-, -, e⟩ <;> rw [h, e] <;> simp
  | obkeyr v h hv => rcases regWriteObkeyr_cases v s with e | ⟨-, -, e⟩ <;> rw [h, e] <;> simp
  | ctlr v h => rw [regWriteCtlr_keeps_locked h hl]; simp
  | addr v h => rw [(regWriteAddr_ok.mp h).2]; simp
  | store a v h =>
    obtain ⟨-, -, -, ⟨-, rfl⟩ | ⟨hl', -⟩⟩ := memWrite16_cases h
    · simp
    · simp [hl] at hl'
  | obStore c v h =>
    obtain ⟨-, ⟨-, rfl⟩ | ⟨hl', -⟩⟩ := writeOb_cases h
    · simp
    · simp [hl] at hl'

/-- Settles O17: while Locked a CTLR write is ignored and a store is dropped, and nothing else writes these
fields. -/
theorem lockedStartsNothing : Obligations.LockedStartsNothing := by
  intro s t hl h
  rcases agentStep_seq h with ⟨-, rfl⟩ | ⟨op, -, hs⟩
  · simp
  · exact seqStep_rule (R := fun s t => s.lock = true →
      t.pend = s.pend ∧ t.bsy = s.bsy ∧ t.strt = s.strt ∧ t.pg = s.pg ∧ t.per = s.per ∧
      t.obpg = s.obpg ∧ t.ober = s.ober)
      hs (by simp) (fun _ _ he hl => he.locked hl) (fun _ hu => hu) hl

end Sys2Proof.Machine
end

section
/-! PROOFS. The invariant of R37 under every step of every agent (spec R37, R138). -/

namespace Sys2Proof.Machine

/-! ## What the invariant does not read -/

/-- The invariant does not read the sequencer registers, the flags, `ADDR`, the count of draws or what stands
outside the block, and of `SPC` only its range. -/
theorem State.Inv.registers {s : State} (h : s.Inv) {t : State} {c : Nat} (hc : c ≤ 25)
    (ht : t = { s with
      ra := t.ra, rd := t.rd, rt := t.rt, res := t.res, rs0 := t.rs0, rs1 := t.rs1, rs2 := t.rs2
      rs3 := t.rs3, rb1 := t.rb1, rb0 := t.rb0, draws := t.draws, addr := t.addr, eop := t.eop
      wrprterr := t.wrprterr, spc := c, seqOp := t.seqOp, fault := t.fault, host := t.host
      response := t.response, turns := t.turns }) : t.Inv := by
  rw [ht]
  exact { h with spc_small := hc }

/-- A change of main flash that keeps its form and its range keeps the invariant. -/
theorem State.Inv.withMain {s : State} (h : s.Inv) {m : Memory} (hwf : m.wf = true)
    (hm : ∀ c ∈ m, s.cfg.flashBase.toNat ≤ c.1 ∧ c.1 < s.cfg.flashBase.toNat + s.cfg.flashSize) :
    State.Inv { s with main := m } :=
  { h with main_wf := hwf, main_exists := hm }

theorem State.Inv.withOb {s : State} (h : s.Inv) (o : OptionBytes) : State.Inv { s with ob := o } :=
  { h with }

/-- Nothing is pending in a state that meets the invariant and is not busy. -/
theorem State.Inv.rested {s : State} (h : s.Inv) (hb : s.bsy = false) :
    s.pend = .none ∧ s.strt = false := by
  have hp : s.pend = .none := by
    by_contra hne
    simp [h.busy_iff_pending.mpr hne] at hb
  refine ⟨hp, ?_⟩
  cases hs : s.strt with
  | false => rfl
  | true =>
    rcases h.start_erases hs with e | ⟨p, e⟩ <;> simp [hp] at e

/-- With nothing pending the invariant asks only for the mode bits, the key FSMs, `SPC` and main flash. -/
theorem State.Inv.of_rested {s t : State} (h : s.Inv) (hr : t.Rested) (hone : t.OneMode)
    (hk : t.cfg.keyFailPolicy = .restart → t.mkFsm ≠ .dead ∧ t.okFsm ≠ .dead) (hspc : t.spc ≤ 25)
    (hm : t.main = s.main) (hc : t.cfg = s.cfg) : t.Inv := by
  obtain ⟨hb, hp, hs⟩ := hr
  exact {
    cfg_ok := hc ▸ h.cfg_ok
    busy_iff_pending := by simp [hb, hp]
    busy_unlocked := by simp [hb]
    one_mode := hone
    start_erases := by simp [hs]
    erase_mode := by simp [hp]
    prog_mode := by simp [hp]
    obErase_mode := by simp [hp]
    obProg_mode := by simp [hp]
    never_dead := hk
    spc_small := hspc
    main_wf := hm ▸ h.main_wf
    main_exists := by rw [hm, hc]; exact h.main_exists }

/-! ## SEQ -/

/-- The page of an address in main flash is one of its pages (R61). -/
theorem pageOf_lt {c : Config} {a : Word} (hc : c.Ok) (hi : inMain c a = true) :
    pageOf c a < c.flashSize / pageSize := by
  have hsize := hc.size_page
  simp only [inMain, Bool.and_eq_true, decide_eq_true_eq] at hi
  simp only [pageOf, pageSize] at hsize ⊢
  omega

/-- The cell of an address in main flash is one of its cells (R61). -/
theorem mainCellOf_lt {c : Config} {a : Word} (hc : c.Ok) (hi : inMain c a = true) :
    mainCellOf c a < c.flashSize / 2 := by
  have hsize := hc.size_page
  simp only [inMain, Bool.and_eq_true, decide_eq_true_eq] at hi
  simp only [mainCellOf, pageSize] at hsize ⊢
  omega

/-- A start of an erase keeps the invariant, when the lock is open. -/
theorem startErase_inv {s t : State} (hi : s.Inv) (hl : s.lock = false) (h : startErase s = .ok t) :
    t.Inv := by
  rcases startErase_cases h with rfl | ⟨hper, hin, -, rfl⟩ | ⟨-, hober, hobl, rfl⟩
  · exact hi
  · have hlt := pageOf_lt hi.cfg_ok hin
    exact { hi with
      busy_iff_pending := by simp
      busy_unlocked := fun _ => hl
      start_erases := fun _ => .inr ⟨_, rfl⟩
      erase_mode := by rintro p ⟨⟩; exact ⟨hper, hlt⟩
      prog_mode := by simp
      obErase_mode := by simp
      obProg_mode := by simp }
  · exact { hi with
      busy_iff_pending := by simp
      busy_unlocked := fun _ => hl
      start_erases := fun _ => .inl rfl
      erase_mode := by simp
      prog_mode := by simp
      obErase_mode := fun _ => ⟨hober, hobl⟩
      obProg_mode := by simp }

/-- A CTLR write keeps the invariant: it is made while not busy, and writes at most one mode bit (R123). -/
theorem regWriteCtlr_inv {v : Word} {s t : State} (hi : s.Inv) (h : regWriteCtlr v s = .ok t) :
    t.Inv := by
  obtain ⟨hb, ⟨-, rfl⟩ | ⟨hl, hone, m, rfl, hm⟩⟩ := regWriteCtlr_cases h
  · exact hi
  · obtain ⟨hp, hs⟩ := hi.rested hb
    rcases hm with rfl | rfl | hstart
    · exact hi.of_rested ⟨hb, hp, hs⟩ hone hi.never_dead hi.spc_small rfl rfl
    · exact hi.of_rested ⟨hb, hp, hs⟩ hone hi.never_dead hi.spc_small rfl rfl
    · refine startErase_inv ?_ ?_ hstart
      case refine_2 => exact hl
      exact hi.of_rested ⟨hb, hp, hs⟩ hone hi.never_dead hi.spc_small rfl rfl

/-- A main key write keeps the invariant (R31). -/
theorem regWriteKeyr_inv {s : State} (hi : s.Inv) (v : Word) : (regWriteKeyr v s).Inv := by
  have hdead : s.cfg.keyFailPolicy = .restart → (regWriteKeyr v s).mkFsm ≠ .dead ∧ s.okFsm ≠ .dead :=
    fun hp => ⟨regWriteKeyr_dead hp (hi.never_dead hp).1, (hi.never_dead hp).2⟩
  rcases regWriteKeyr_cases v s with e | ⟨-, -, e⟩
  · rw [e]
    exact { hi with never_dead := hdead }
  · rw [e] at hdead ⊢
    exact { hi with never_dead := hdead, busy_unlocked := fun _ => rfl }

/-- An option key write keeps the invariant (R31). -/
theorem regWriteObkeyr_inv {s : State} (hi : s.Inv) (v : Word) : (regWriteObkeyr v s).Inv := by
  have hdead : s.cfg.keyFailPolicy = .restart → s.mkFsm ≠ .dead ∧ (regWriteObkeyr v s).okFsm ≠ .dead :=
    fun hp => ⟨(hi.never_dead hp).1, regWriteObkeyr_dead hp (hi.never_dead hp).2⟩
  rcases regWriteObkeyr_cases v s with e | ⟨-, -, e⟩
  · rw [e]
    exact { hi with never_dead := hdead }
  · rw [e] at hdead ⊢
    exact { hi with
      never_dead := hdead
      obErase_mode := fun h => ⟨(hi.obErase_mode h).1, rfl⟩
      obProg_mode := fun c w h => ⟨(hi.obProg_mode c w h).1, rfl⟩ }

/-- A store to main flash keeps the invariant: the cell it records exists, under `PG` (R129). -/
theorem memWrite16_inv {a : Word} {v : Half} {s t : State} (hi : s.Inv)
    (h : memWrite16 a v s = .ok t) : t.Inv := by
  obtain ⟨hin, -, hb, ⟨-, rfl⟩ | ⟨hl, hpg, rfl⟩⟩ := memWrite16_cases h
  · exact hi
  · have hs := (hi.rested hb).2
    have hlt := mainCellOf_lt hi.cfg_ok hin
    exact { hi with
      busy_iff_pending := by simp
      busy_unlocked := fun _ => hl
      start_erases := by simp [hs]
      erase_mode := by simp
      prog_mode := by rintro i w ⟨⟩; exact ⟨hpg, hlt⟩
      obErase_mode := by simp
      obProg_mode := by simp }

/-- A store to an option cell keeps the invariant: it is recorded under `OBPG` and both locks open (R131). -/
theorem writeOb_inv {c : CellId} {v : Half} {s t : State} (hi : s.Inv) (h : writeOb c v s = .ok t) :
    t.Inv := by
  obtain ⟨hb, ⟨-, rfl⟩ | ⟨hl, hobl, hobpg, rfl⟩⟩ := writeOb_cases h
  · exact hi
  · have hs := (hi.rested hb).2
    exact { hi with
      busy_iff_pending := by simp
      busy_unlocked := fun _ => hl
      start_erases := by simp [hs]
      erase_mode := by simp
      prog_mode := by simp
      obErase_mode := by simp
      obProg_mode := fun _ _ _ => ⟨hobpg, hobl⟩ }

/-- Every effect of a micro-step keeps the invariant. -/
theorem Effect.inv {op : Op} {m : MicroStep} {k n : Nat} {s t : State} (h : Effect op m k n s t)
    (hi : s.Inv) (hk : k ≤ 25) (hn : n ≤ 25) : t.Inv := by
  cases h with
  | registers h => exact hi.registers hi.spc_small (by rw [h])
  | leaves h => exact hi.registers hn (by rw [h])
  | polls hm hv h => exact hi.registers hk (by rw [h])
  | statr v h => exact hi.registers hi.spc_small (by rw [h]; rfl)
  | keyr v h hv => exact h ▸ regWriteKeyr_inv hi v
  | obkeyr v h hv => exact h ▸ regWriteObkeyr_inv hi v
  | ctlr v h => exact regWriteCtlr_inv hi h
  | addr v h => exact hi.registers hi.spc_small (by rw [(regWriteAddr_ok.mp h).2])
  | store a v h => exact memWrite16_inv hi h
  | obStore c v h => exact writeOb_inv hi h

/-- SEQ's step keeps the invariant. -/
theorem seqStep_inv {op : Op} {s t : State} (hi : s.Inv) (h : seqStep op (progOf op) s = .ok t) :
    t.Inv := by
  have hlen := (length_progOf op).2
  have hfin : ∀ u : State, u.Inv → (u.finish op).Inv := fun u hu => hu.registers hu.spc_small rfl
  rcases seqStep_effect h with ⟨-, rfl⟩ | ⟨m, u, hlt, he, hu⟩
  · exact hfin s hi
  · have hui := he.inv (hi.registers (c := s.spc + 1) (by omega) rfl) (by omega) hlen
    rcases hu with ⟨rfl, -⟩ | ⟨rfl, -⟩
    · exact hfin u hui
    · exact hui

/-! ## ENG -/

/-- Cells of main flash written from cell `i` on keep the invariant, when they exist. -/
theorem State.Inv.setMainCells {s : State} (h : s.Inv) {i : Nat} {ws : List Half}
    (hi : 2 * (i + ws.length) ≤ s.cfg.flashSize) : (s.setMainCells i ws).Inv := by
  refine h.withMain (wf_setMainCells h.main_wf i ws) fun c hc => ?_
  rcases mem_writeHalves ws hc with ⟨hlo, hhi⟩ | hold
  · simp only [cellAddr] at hlo hhi
    omega
  · exact h.main_exists c hold

/-- One cell written is a run of one cell. -/
theorem setMainCell_eq_setMainCells (s : State) (i : Nat) (w : Half) :
    s.setMainCell i w = s.setMainCells i [w] := rfl

theorem State.Inv.setMainCell {s : State} (h : s.Inv) {i : Nat} {w : Half}
    (hi : i < s.cfg.flashSize / 2) : (s.setMainCell i w).Inv := by
  rw [setMainCell_eq_setMainCells]
  exact h.setMainCells (by simp only [List.length_singleton]; omega)

/-- The cells of a page of main flash exist. -/
theorem page_cells_exist {c : Config} {p : Nat} (h : p < c.flashSize / pageSize) :
    2 * (pageCells * p + pageCells) ≤ c.flashSize := by
  simp only [pageSize, pageCells] at h ⊢
  omega

theorem State.Inv.drawn {s : State} (h : s.Inv) (n : Nat) : (s.drawn n).Inv :=
  h.registers h.spc_small rfl

/-- `Finish()` keeps the invariant (R136). -/
theorem State.Inv.finishPending {s : State} (h : s.Inv) : (finishPending s).Inv :=
  h.of_rested ⟨rfl, rfl, rfl⟩ h.one_mode h.never_dead h.spc_small rfl rfl

theorem completeErase_inv {s : State} {p : Nat} (h : s.Inv) (hp : p < s.cfg.flashSize / pageSize) :
    (completeErase p s).Inv := by
  unfold completeErase
  split
  · exact h.registers h.spc_small rfl
  · have hcells := h.setMainCells (i := pageCells * p) (ws := List.replicate pageCells erased16)
      (by rw [List.length_replicate]; exact page_cells_exist hp)
    generalize s.setMainCells _ _ = u at hcells ⊢
    exact hcells.registers hcells.spc_small rfl

theorem completeProg_inv {s : State} {i : Nat} {v : Half} (h : s.Inv) (hi : i < s.cfg.flashSize / 2) :
    (completeProg i v s).Inv := by
  unfold completeProg
  split
  · exact h.registers h.spc_small rfl
  · split
    · have hcell := h.setMainCell (w := v) hi
      exact hcell.registers hcell.spc_small rfl
    · have hcell := (h.drawn 1).setMainCell (w := s.nextDraw) hi
      exact hcell.registers hcell.spc_small rfl

theorem completeObProg_inv {s : State} (h : s.Inv) (c : CellId) (v : Half) :
    (completeObProg c v s).Inv := by
  unfold completeObProg
  split
  · exact (h.withOb (s.ob.set c (storedWord s.cfg v))).registers h.spc_small rfl
  · exact (h.withOb (s.ob.set c s.nextDraw)).registers h.spc_small rfl

/-- ENG's step keeps the invariant: what is pending exists, and its completion leaves the block at rest. -/
theorem engStep_inv {s : State} (h : s.Inv) : (engStep s).Inv := by
  unfold engStep
  split
  · exact h
  · rename_i p hp
    exact (completeErase_inv h (h.erase_mode p hp).2).finishPending
  · rename_i i v hp
    exact (completeProg_inv h (h.prog_mode i v hp).2).finishPending
  · exact State.Inv.finishPending ((h.withOb .erased).registers h.spc_small rfl)
  · exact (completeObProg_inv h _ _).finishPending

/-! ## RESET and HOST -/

/-- `Spoil` keeps the invariant (R242). -/
theorem spoil_inv {s : State} (h : s.Inv) : (spoil s).Inv := by
  unfold spoil
  split
  · exact h
  · rename_i p hp
    exact (h.drawn _).setMainCells (by
      simpa [State.drawList] using page_cells_exist (h.erase_mode p hp).2)
  · rename_i i v hp
    exact (h.drawn _).setMainCell (h.prog_mode i v hp).2
  · exact (h.drawn 6).withOb _
  · exact (h.drawn 1).withOb _

/-- The RESET step keeps the invariant (R241). -/
theorem resetStep_inv {s : State} (h : s.Inv) : (resetStep s).Inv := by
  have hc : (clearControl (spoil s)).Inv :=
    (spoil_inv h).of_rested ⟨rfl, rfl, rfl⟩ (by simp [modeCount]) (by simp) (by simp) rfl rfl
  exact hc.registers hc.spc_small rfl

/-- A word accepted keeps the invariant (R138 (1)). -/
theorem State.Inv.accept {s : State} (h : s.Inv) (op : Op) (a d : Word) : (s.accept op a d).Inv :=
  h.registers (Nat.zero_le 25) rfl

theorem State.Inv.withHost {s : State} (h : s.Inv) (acts : List HostAction) (ts : List Agent) :
    State.Inv { s with host := acts, turns := ts } :=
  h.registers h.spc_small rfl

/-- HOST's step answers one of three states: nothing to do, RESET, or the word accepted. -/
theorem agentMove_host {s t : State} (h : agentMove .host s = .next t) :
    t = s ∨ ∃ rest, t = resetStep { s with host := rest } ∨
      ∃ i : Instr, t = ({ s with host := rest } : State).accept i.op i.a i.d := by
  simp only [agentMove] at h
  split at h
  · cases h; exact .inl rfl
  · rename_i rest _
    cases h; exact .inr ⟨rest, .inl rfl⟩
  · rename_i rest _
    split at h
    · cases h; exact .inl rfl
    · split at h <;> cases h
      exact .inr ⟨rest, .inr ⟨_, rfl⟩⟩

/-- Every agent's step keeps the invariant. -/
theorem agentStep_inv {g : Agent} {s t : State} (hi : s.Inv) (h : agentStep g s = .next t) : t.Inv := by
  cases g with
  | host =>
    obtain ⟨-, hm⟩ := agentStep_next h
    rcases agentMove_host hm with rfl | ⟨rest, rfl | ⟨i, rfl⟩⟩
    · exact hi
    · exact resetStep_inv (hi.withHost rest s.turns)
    · exact (hi.withHost rest s.turns).accept _ _ _
  | seq =>
    rcases agentStep_seq h with ⟨-, rfl⟩ | ⟨op, -, hs⟩
    · exact hi
    · exact seqStep_inv hi hs
  | eng =>
    obtain ⟨-, hm⟩ := agentStep_next h
    cases hm
    exact engStep_inv hi

/-- Settles O13: SEQ by the effects of its micro-steps, ENG by its completions, HOST by acceptance and RESET. -/
theorem agentStepKeepsInvariant : Obligations.AgentStepKeepsInvariant := fun _ _ _ => agentStep_inv

/-- After reset the block is at rest with no key accepted, so that only the parameters are left to ask for. -/
theorem reset_inv {c : Config} (h : c.Ok) : State.Inv { State.reset with cfg := c } where
  cfg_ok := h
  busy_iff_pending := by simp [State.reset]
  busy_unlocked := by simp [State.reset]
  one_mode := by simp [State.reset, modeCount]
  start_erases := by simp [State.reset]
  erase_mode := by simp [State.reset]
  prog_mode := by simp [State.reset]
  obErase_mode := by simp [State.reset]
  obProg_mode := by simp [State.reset]
  never_dead := by simp [State.reset]
  spc_small := Nat.zero_le 25
  main_wf := reset_main_wf
  main_exists := by simp [State.reset]

/-- The family's parameters keep the constraints of R7. -/
theorem familyConfig_ok : Config.family.Ok where
  base_page := by decide
  size_page := by decide
  fits := by decide
  nv_even := by decide
  nv_fits := by decide
  statr_distinct := by decide
  statr_small := by decide
  ctlr_distinct := by decide
  ctlr_small := by decide

/-- Settles O11: the reset values meet the invariant with any parameters that keep their constraints, and the
family's do. -/
theorem resetMeetsInvariant : Obligations.ResetMeetsInvariant :=
  ⟨fun _ => reset_inv, reset_inv familyConfig_ok⟩

end Sys2Proof.Machine
end

section
/-! PROOFS. What the agents do not read: the order of the agents, and the operand bits a command does not use
(spec R92, R94, R138). -/

namespace Sys2Proof.Machine

/-- The state with another order of the agents and other operands. -/
def State.recast (s : State) (ts : List Agent) (x y : Word) : State :=
  { s with turns := ts, ra := x, rd := y }

/-- The state with no order of the agents left. -/
abbrev State.calmed (s : State) : State := { s with turns := [] }

/-! ## ENG and RESET -/

/-! ### One equation per kind of pending operation -/

section
variable {s : State} {p i : Nat} {v : Half} {c : CellId}

theorem engStep_erase (h : s.pend = .erase p) : engStep s = finishPending (completeErase p s) := by
  simp only [engStep, h]

theorem engStep_prog (h : s.pend = .prog i v) : engStep s = finishPending (completeProg i v s) := by
  simp only [engStep, h]

theorem engStep_obProg (h : s.pend = .obProg c v) : engStep s = finishPending (completeObProg c v s) := by
  simp only [engStep, h]

theorem spoil_erase (h : s.pend = .erase p) :
    spoil s = (s.drawn pageCells).setMainCells (pageCells * p) (s.drawList pageCells) := by
  simp only [spoil, h]

theorem spoil_prog (h : s.pend = .prog i v) : spoil s = (s.drawn 1).setMainCell i s.nextDraw := by
  simp only [spoil, h]

theorem spoil_obErase (h : s.pend = .obErase) :
    spoil s = { s.drawn 6 with
      ob := { user := Config.any16 s.draws, rdpr := Config.any16 (s.draws + 1)
              wrpr1 := Config.any16 (s.draws + 2), wrpr0 := Config.any16 (s.draws + 3)
              data1 := Config.any16 (s.draws + 4), data0 := Config.any16 (s.draws + 5) } } := by
  simp only [spoil, h]

theorem spoil_obProg (h : s.pend = .obProg c v) :
    spoil s = { s.drawn 1 with ob := s.ob.set c s.nextDraw } := by
  simp only [spoil, h]

end

/-! ### What stands outside ENG and RESET -/

/-- ENG reads and writes neither the option lock, nor the sequencer, nor the order of the agents (R136). -/
theorem engStep_outside (s : State) (l : Bool) (q : Option Op) (c : Nat) (x y z : Word)
    (r : Option Response) (ts : List Agent) :
    engStep { s with
        obl := l, seqOp := q, spc := c, ra := x, rd := y, rt := z, response := r, turns := ts } =
      { engStep s with
        obl := l, seqOp := q, spc := c, ra := x, rd := y, rt := z, response := r, turns := ts } := by
  generalize hu : ({ s with
        obl := l, seqOp := q, spc := c, ra := x, rd := y, rt := z, response := r, turns := ts } : State) = u
  have hpend : u.pend = s.pend := by rw [← hu]
  have hcfg : u.cfg = s.cfg := by rw [← hu]
  have hob : u.ob = s.ob := by rw [← hu]
  have hcell (i : Nat) : u.mainCell i = s.mainCell i := mainCell_congr (by rw [← hu]) hcfg i
  cases hp : s.pend with
  | none => rw [engStep_none hp, engStep_none (hpend.trans hp), ← hu]
  | erase p =>
    rw [engStep_erase hp, engStep_erase (hpend.trans hp), completeErase, completeErase, hcfg]
    generalize List.replicate pageCells erased16 = ws
    split_ifs <;> rw [← hu] <;> rfl
  | prog i v =>
    rw [engStep_prog hp, engStep_prog (hpend.trans hp), completeProg, completeProg, hcfg, hcell]
    split_ifs <;> rw [← hu] <;> rfl
  | obErase => rw [engStep_obErase hp, engStep_obErase (hpend.trans hp), ← hu]; rfl
  | obProg c' v =>
    rw [engStep_obProg hp, engStep_obProg (hpend.trans hp), completeObProg, completeObProg, hob, hcfg]
    split_ifs <;> rw [← hu] <;> rfl

theorem engStep_turns (s : State) (ts : List Agent) :
    engStep { s with turns := ts } = { engStep s with turns := ts } := by
  have h := engStep_outside s s.obl s.seqOp s.spc s.ra s.rd s.rt s.response ts
  rw [engStep_frame s] at h ⊢
  exact h

theorem engStep_recast (s : State) (ts : List Agent) (x y : Word) :
    engStep (s.recast ts x y) = (engStep s).recast ts x y := by
  have h := engStep_outside s s.obl s.seqOp s.spc x y s.rt s.response ts
  rw [engStep_frame s] at h ⊢
  exact h

theorem engStep_accept (s : State) (op : Op) (a d : Word) :
    engStep (s.accept op a d) = (engStep s).accept op a d := by
  have h := engStep_outside s s.obl (some op) 0 a d s.rt none s.turns
  rw [engStep_frame s] at h ⊢
  exact h

theorem engStep_rt (s : State) (z : Word) :
    engStep { s with rt := z } = { engStep s with rt := z } := by
  have h := engStep_outside s s.obl s.seqOp s.spc s.ra s.rd z s.response s.turns
  rw [engStep_frame s] at h ⊢
  exact h

theorem engStep_obl (s : State) (l : Bool) :
    engStep { s with obl := l } = { engStep s with obl := l } := by
  have h := engStep_outside s l s.seqOp s.spc s.ra s.rd s.rt s.response s.turns
  rw [engStep_frame s] at h ⊢
  exact h

theorem spoil_recast (s : State) (ts : List Agent) (x y : Word) :
   spoil (s.recast ts x y) = (spoil s).recast ts x y := by
  cases hp : s.pend with
  | none => rw [spoil_none hp, spoil_none (s := s.recast ts x y) hp]
  | erase p =>
    rw [spoil_erase hp, spoil_erase (s := s.recast ts x y) hp]
    generalize pageCells = n
    rfl
  | prog i v => rw [spoil_prog hp, spoil_prog (s := s.recast ts x y) hp]; rfl
  | obErase => rw [spoil_obErase hp, spoil_obErase (s := s.recast ts x y) hp]; rfl
  | obProg c v => rw [spoil_obProg hp, spoil_obProg (s := s.recast ts x y) hp]; rfl

/-- RESET reads neither the operands, which it forgets, nor the order of the agents, which it keeps (R241). -/
theorem resetStep_recast (s : State) (ts : List Agent) (x y : Word) :
    resetStep (s.recast ts x y) = { resetStep s with turns := ts } := by
  rw [resetStep, spoil_recast]
  rfl

theorem resetStep_turns (s : State) (ts : List Agent) :
    resetStep { s with turns := ts } = { resetStep s with turns := ts } :=
  resetStep_recast s ts s.ra s.rd

/-! ## The register and cell transactions -/

section
variable (s : State) (ts : List Agent) (x y : Word)

theorem regWriteKeyr_recast (v : Word) :
    regWriteKeyr v (s.recast ts x y) = (regWriteKeyr v s).recast ts x y := by
  have h : (s.recast ts x y).mkFsm = s.mkFsm := rfl
  cases hf : s.mkFsm <;> simp only [regWriteKeyr, h, hf, apply_ite (State.recast · ts x y)]
  all_goals rfl

theorem regWriteObkeyr_recast (v : Word) :
    regWriteObkeyr v (s.recast ts x y) = (regWriteObkeyr v s).recast ts x y := by
  have h : (s.recast ts x y).okFsm = s.okFsm := rfl
  cases hf : s.okFsm <;> simp only [regWriteObkeyr, h, hf, apply_ite (State.recast · ts x y)] <;> rfl

theorem regWriteAddr_recast (v : Word) :
    regWriteAddr v (s.recast ts x y) = (regWriteAddr v s).map (·.recast ts x y) := by
  simp only [regWriteAddr, apply_ite (Except.map _)]
  rfl

theorem regWriteCtlr_recast (v : Word) :
    regWriteCtlr v (s.recast ts x y) = (regWriteCtlr v s).map (·.recast ts x y) := by
  simp only [regWriteCtlr, startErase, apply_ite (Except.map _)]
  rfl

theorem readMain_recast (i : Nat) :
    readMain i (s.recast ts x y) = ((readMain i s).1, (readMain i s).2.recast ts x y) := by
  have h : affected (s.recast ts x y).pend i = affected s.pend i := rfl
  simp only [readMain, h]
  split_ifs <;> rfl

theorem memRead8_recast (a : Word) :
    memRead8 a (s.recast ts x y) = (memRead8 a s).map fun r => (r.1, r.2.recast ts x y) := by
  simp only [memRead8, readMain_recast, apply_ite (Except.map _)]
  rfl

theorem memRead16_recast (a : Word) :
    memRead16 a (s.recast ts x y) = (memRead16 a s).map fun r => (r.1, r.2.recast ts x y) := by
  simp only [memRead16, readMain_recast, apply_ite (Except.map _)]
  rfl

theorem memWrite16_recast (a : Word) (v : Half) :
    memWrite16 a v (s.recast ts x y) = (memWrite16 a v s).map (·.recast ts x y) := by
  simp only [memWrite16, apply_ite (Except.map _)]
  rfl

theorem readOb_recast (c : CellId) :
    readOb c (s.recast ts x y) = ((readOb c s).1, (readOb c s).2.recast ts x y) := by
  have h : obAffected (s.recast ts x y).pend c = obAffected s.pend c := rfl
  simp only [readOb, h]
  split_ifs <;> rfl

theorem writeOb_recast (c : CellId) (v : Half) :
    writeOb c v (s.recast ts x y) = (writeOb c v s).map (·.recast ts x y) := by
  simp only [writeOb, apply_ite (Except.map _)]
  rfl

end

end Sys2Proof.Machine
end

section
/-! PROOFS. Which operand bits a micro-step reads, for every command (spec R92, R94), and what is left of the
order when SEQ has moved. -/

namespace Sys2Proof.Machine

/-- The micro-step reads of RA only the bits of `A`, of RD only those of `D`, and not the order of the agents; and
it writes none of the three. -/
def Oblivious (A D : Word) (m : MicroStep) : Prop :=
  ∀ (k n : Nat) (s : State) (ts : List Agent) (x y : Word),
    x &&& A = s.ra &&& A → y &&& D = s.rd &&& D →
      m k n (s.recast ts x y) = (m k n s).map (·.recast ts x y)

/-! ## Masked operands -/

/-- Words that agree on the bits of a mask agree on a field the mask covers. -/
theorem extractLsb'_of_masked {v w mask : Word} {n : Nat} (hm : ∀ i < n, mask.getLsbD i = true)
    (h : v &&& mask = w &&& mask) : v.extractLsb' 0 n = w.extractLsb' 0 n := by
  apply BitVec.eq_of_getLsbD_eq
  intro i hi
  have hbit := congrArg (fun u => u.getLsbD i) h
  simp only [BitVec.getLsbD_and, hm i hi, Bool.and_true] at hbit
  simp [hi, hbit]

theorem eq_of_masked_all {v w : Word} (h : v &&& 0xFFFFFFFF#32 = w &&& 0xFFFFFFFF#32) : v = w := by
  have hall (u : Word) : u &&& 0xFFFFFFFF#32 = u := BitVec.and_allOnes
  rwa [hall, hall] at h

theorem lowHalf_of_masked {v w : Word} (h : v &&& 0xFFFF#32 = w &&& 0xFFFF#32) : lowHalf v = lowHalf w :=
  extractLsb'_of_masked (n := 16) (by decide) h

theorem byteOperand_of_masked {v w : Word} (h : v &&& 0xFF#32 = w &&& 0xFF#32) :
    byteOperand v = byteOperand w :=
  extractLsb'_of_masked (n := 8) (by decide) h

theorem cellOperand_of_masked {v w : Word} (h : v &&& 7#32 = w &&& 7#32) :
    cellOperand v = cellOperand w :=
  extractLsb'_of_masked (n := 3) (by decide) h

/-! ## Micro-steps that read no operand -/

section
variable (A D : Word)

theorem oblivious_act {f : State → State}
    (h : ∀ s ts x y, f (s.recast ts x y) = (f s).recast ts x y) : Oblivious A D (act f) :=
  fun _ _ s ts x y _ _ => congrArg Except.ok (h s ts x y)

theorem oblivious_guardLock : Oblivious A D guardLock := fun _ _ _ _ _ _ _ _ => rfl

theorem oblivious_spinNotBusy : Oblivious A D spinNotBusy := fun _ _ _ _ _ _ _ _ => rfl

theorem oblivious_spinDone : Oblivious A D spinDone := fun _ _ _ _ _ _ _ _ => rfl

theorem oblivious_ctlrSet (bit : Config → Nat) : Oblivious A D (ctlrSet bit) :=
  fun _ _ s ts x y _ _ => regWriteCtlr_recast s ts x y _

theorem oblivious_ctlrClr (bit : Config → Nat) : Oblivious A D (ctlrClr bit) :=
  fun _ _ s ts x y _ _ => regWriteCtlr_recast s ts x y _

theorem oblivious_clearDone : Oblivious A D clearDone := fun _ _ _ _ _ _ _ _ => rfl

theorem oblivious_readFlag (bit : Config → Nat) : Oblivious A D (readFlag bit) :=
  fun _ _ _ _ _ _ _ _ => rfl

theorem oblivious_writeOb (c : CellId) {v : State → Half}
    (hv : ∀ s ts x y, v (State.recast s ts x y) = v s) :
    Oblivious A D (actOrFault fun s => writeOb c (v s) s) := by
  intro k n s ts x y _ _
  simp only [actOrFault, hv, writeOb_recast]

/-- A micro-step that reads an option cell into a register. -/
theorem oblivious_readOb (c : CellId) {f : State → Half → State → State}
    (hf : ∀ u v s ts x y, f (State.recast u ts x y) v (State.recast s ts x y) = (f u v s).recast ts x y) :
    Oblivious A D (act fun s => f s (readOb c s).1 (readOb c s).2) := by
  refine oblivious_act A D fun s ts x y => ?_
  rw [readOb_recast, hf]

theorem oblivious_readField (c : CellId) : Oblivious A D (readField c) :=
  oblivious_readOb A D c (f := fun _ v s => { s with res := zextByte (decodeCell v) })
    fun _ _ _ _ _ _ => rfl

end

/-! ## Micro-steps that read RA whole -/

section
variable (D : Word)

theorem oblivious_loadByte : Oblivious 0xFFFFFFFF#32 D loadByte := by
  intro k n s ts x y hx _
  have hra : (s.recast ts x y).ra = s.ra := eq_of_masked_all hx
  simp only [loadByte, actOrFault, hra, memRead8_recast]
  cases memRead8 s.ra s <;> rfl

/-- A micro-step that reads a main cell into a register. -/
theorem oblivious_memRead16 {a : Word → Word} {f : Half → State → State}
    (hf : ∀ v s ts x y, f v (State.recast s ts x y) = (f v s).recast ts x y) :
    Oblivious 0xFFFFFFFF#32 D (actOrFault fun s =>
      match memRead16 (a s.ra) s with
      | .error e => .error e
      | .ok (v, s) => .ok (f v s)) := by
  intro k n s ts x y hx _
  have hra : (s.recast ts x y).ra = s.ra := eq_of_masked_all hx
  simp only [actOrFault, hra, memRead16_recast]
  cases memRead16 (a s.ra) s with
  | error e => rfl
  | ok r => simp only [Except.map, hf]

theorem oblivious_loadHalf : Oblivious 0xFFFFFFFF#32 D loadHalf :=
  oblivious_memRead16 D (a := id) (f := fun v s => { s with res := zextHalf v }) fun _ _ _ _ _ => rfl

theorem oblivious_eraseAddr : Oblivious 0xFFFFFFFF#32 D (actOrFault fun s => regWriteAddr s.ra s) := by
  intro k n s ts x y hx _
  have hra : (s.recast ts x y).ra = s.ra := eq_of_masked_all hx
  simp only [actOrFault, hra, regWriteAddr_recast]

theorem oblivious_calcAddr :
    Oblivious 0xFFFFFFFF#32 D (act fun s => { s with res := calculateAddress s.cfg s.ra }) := by
  intro k n s ts x y hx _
  obtain rfl : x = s.ra := eq_of_masked_all hx
  rfl

theorem oblivious_storeHalf_of {D : Word} (hD : ∀ {v w : Word}, v &&& D = w &&& D → lowHalf v = lowHalf w) :
    Oblivious 0xFFFFFFFF#32 D storeHalf := by
  intro k n s ts x y hx hy
  have hra : (s.recast ts x y).ra = s.ra := eq_of_masked_all hx
  have hrd : lowHalf (s.recast ts x y).rd = lowHalf s.rd := hD hy
  simp only [storeHalf, actOrFault, hra, hrd, memWrite16_recast]

theorem oblivious_storeHalf : Oblivious 0xFFFFFFFF#32 0xFFFF#32 storeHalf :=
  oblivious_storeHalf_of lowHalf_of_masked

theorem oblivious_program16Steps {j : Nat} :
    EachStep (fun _ => Oblivious 0xFFFFFFFF#32 0xFFFF#32) j program16Steps :=
  ⟨oblivious_guardLock _ _, oblivious_spinNotBusy _ _, oblivious_ctlrSet _ _ _, oblivious_storeHalf,
    oblivious_spinNotBusy _ _, oblivious_ctlrClr _ _ _, trivial⟩

end

/-! ## Micro-steps that read RD whole -/

section
variable (A : Word)

/-- A micro-step that writes RD, whole, to a register. -/
theorem oblivious_rdWrite {f : Word → State → State}
    (hf : ∀ v s ts x y, f v (State.recast s ts x y) = (f v s).recast ts x y) :
    Oblivious A 0xFFFFFFFF#32 (act fun s => f s.rd s) := by
  intro k n s ts x y _ hy
  have hrd : (s.recast ts x y).rd = s.rd := eq_of_masked_all hy
  simp only [act, hrd, hf, Except.map]

/-- The same, where the write may fault. -/
theorem oblivious_rdWriteOrFault {f : Word → State → Except Fault State}
    (hf : ∀ v s ts x y, f v (State.recast s ts x y) = (f v s).map (·.recast ts x y)) :
    Oblivious A 0xFFFFFFFF#32 (actOrFault fun s => f s.rd s) := by
  intro k n s ts x y _ hy
  have hrd : (s.recast ts x y).rd = s.rd := eq_of_masked_all hy
  simp only [actOrFault, hrd, hf]

end

/-! ## The other readers of operands -/

theorem oblivious_ldob : EachStep (fun _ => Oblivious 7#32 0#32) 0 progLdob := by
  refine ⟨?_, trivial⟩
  intro k n s ts x y hx _
  have hra : cellOperand (s.recast ts x y).ra = cellOperand s.ra := cellOperand_of_masked hx
  simp only [actOrFault, obRead, hra]
  cases cellOf (cellOperand s.ra) with
  | none => rfl
  | some c => simp only [readOb_recast]; rfl

theorem oblivious_stob : EachStep (fun _ => Oblivious 7#32 0xFFFF#32) 0 progStob := by
  refine ⟨?_, trivial⟩
  intro k n s ts x y hx hy
  have hra : cellOperand (s.recast ts x y).ra = cellOperand s.ra := cellOperand_of_masked hx
  have hrd : lowHalf (s.recast ts x y).rd = lowHalf s.rd := lowHalf_of_masked hy
  simp only [actOrFault, obWrite, hra, hrd]
  cases cellOf (cellOperand s.ra) with
  | none => rfl
  | some c => simp only [writeOb_recast]

/-- A micro-step that reads `x[RD][15:0]` into sequencer registers. -/
theorem oblivious_lowHalf {f : Half → State → State}
    (hf : ∀ v s ts x y, f v (State.recast s ts x y) = (f v s).recast ts x y) :
    Oblivious 0#32 0xFFFF#32 (act fun s => f (lowHalf s.rd) s) := by
  intro k n s ts x y _ hy
  have hrd : lowHalf (s.recast ts x y).rd = lowHalf s.rd := lowHalf_of_masked hy
  simp only [act, hrd, hf, Except.map]

theorem oblivious_encodeCell : EachStep (fun _ => Oblivious 0#32 0xFF#32) 0 progEncodeCell := by
  refine ⟨?_, trivial⟩
  intro k n s ts x y _ hy
  have hrd : byteOperand (s.recast ts x y).rd = byteOperand s.rd := byteOperand_of_masked hy
  simp only [act, hrd, Except.map]
  rfl

theorem oblivious_writeObSteps : EachStep (fun _ => Oblivious 0#32 0xFFFF#32) 0 writeObSteps :=
  ⟨oblivious_guardLock _ _, oblivious_spinNotBusy _ _,
    oblivious_readOb _ _ _ (f := fun _ v s => { s with rs0 := v }) fun _ _ _ _ _ _ => rfl,
    oblivious_readOb _ _ _ (f := fun _ v s => { s with rs1 := v }) fun _ _ _ _ _ _ => rfl,
    oblivious_readOb _ _ _ (f := fun _ v s => { s with rs2 := v }) fun _ _ _ _ _ _ => rfl,
    oblivious_readOb _ _ _ (f := fun _ v s => { s with rs3 := v }) fun _ _ _ _ _ _ => rfl,
    oblivious_lowHalf (f := fun v s => { s with rb1 := highByte v, rb0 := lowByte v })
      fun _ _ _ _ _ => rfl,
    oblivious_ctlrSet _ _ _, oblivious_ctlrSet _ _ _, oblivious_spinNotBusy _ _, oblivious_ctlrClr _ _ _,
    oblivious_ctlrSet _ _ _, oblivious_writeOb _ _ _ fun _ _ _ _ => rfl, oblivious_spinNotBusy _ _,
    oblivious_writeOb _ _ _ fun _ _ _ _ => rfl, oblivious_spinNotBusy _ _,
    oblivious_writeOb _ _ _ fun _ _ _ _ => rfl, oblivious_spinNotBusy _ _,
    oblivious_writeOb _ _ _ fun _ _ _ _ => rfl, oblivious_spinNotBusy _ _,
    oblivious_writeOb _ _ _ fun _ _ _ _ => rfl, oblivious_spinNotBusy _ _,
    oblivious_writeOb _ _ _ fun _ _ _ _ => rfl, oblivious_spinNotBusy _ _, oblivious_ctlrClr _ _ _,
    trivial⟩

/-! ## The commands -/

/-- Every command but PROGRAM_FLOAT, which moves its operands on, reads of them only the bits R93 says. -/
theorem oblivious_progOf {op : Op} (h : op ≠ .programFloat) :
    EachStep (fun _ => Oblivious op.usedA op.usedD) 0 (progOf op) := by
  cases op with
  | rdStatr | rdCtlr => exact ⟨oblivious_act _ _ fun _ _ _ _ => rfl, trivial⟩
  | wrStatr => exact ⟨oblivious_rdWrite _ (f := regWriteStatr) fun _ _ _ _ _ => rfl, trivial⟩
  | wrCtlr =>
    exact ⟨oblivious_rdWriteOrFault _ (f := regWriteCtlr) fun v s ts x y => regWriteCtlr_recast s ts x y v,
      trivial⟩
  | wrKeyr =>
    exact ⟨oblivious_rdWrite _ (f := regWriteKeyr) fun v s ts x y => regWriteKeyr_recast s ts x y v, trivial⟩
  | wrObkeyr =>
    exact ⟨oblivious_rdWrite _ (f := regWriteObkeyr) fun v s ts x y => regWriteObkeyr_recast s ts x y v,
      trivial⟩
  | wrAddr =>
    exact ⟨oblivious_rdWriteOrFault _ (f := regWriteAddr) fun v s ts x y => regWriteAddr_recast s ts x y v,
      trivial⟩
  | ld8 | read8 => exact ⟨oblivious_loadByte _, trivial⟩
  | ld16 | read16 => exact ⟨oblivious_loadHalf _, trivial⟩
  | st16 => exact ⟨oblivious_storeHalf, trivial⟩
  | ldob => exact oblivious_ldob
  | stob => exact oblivious_stob
  | calcAddr => exact ⟨oblivious_calcAddr _, trivial⟩
  | unlock =>
    exact ⟨oblivious_act _ _ fun s ts x y => regWriteKeyr_recast s ts x y s.cfg.key1,
      oblivious_act _ _ fun s ts x y => regWriteKeyr_recast s ts x y s.cfg.key2, trivial⟩
  | unlockOb =>
    exact ⟨oblivious_act _ _ fun s ts x y => regWriteObkeyr_recast s ts x y s.cfg.obKey1,
      oblivious_act _ _ fun s ts x y => regWriteObkeyr_recast s ts x y s.cfg.obKey2, trivial⟩
  | lock => exact ⟨oblivious_ctlrSet _ _ _, trivial⟩
  | isBusy | isDone | isWperr => exact ⟨oblivious_readFlag _ _ _, trivial⟩
  | clearDone => exact ⟨oblivious_clearDone _ _, trivial⟩
  | waitNotBusy => exact ⟨oblivious_spinNotBusy _ _, trivial⟩
  | waitDone => exact ⟨oblivious_spinDone _ _, oblivious_clearDone _ _, trivial⟩
  | erasePage =>
    exact ⟨oblivious_guardLock _ _, oblivious_spinNotBusy _ _, oblivious_ctlrSet _ _ _,
      oblivious_eraseAddr _, oblivious_ctlrSet _ _ _, oblivious_spinNotBusy _ _, oblivious_ctlrClr _ _ _,
      trivial⟩
  | program16 | program8x2 => exact oblivious_program16Steps
  | programFloat => exact absurd rfl h
  | readFloat =>
    exact ⟨oblivious_memRead16 _ (a := id) (f := fun v s => { s with rt := zextHalf v })
        fun _ _ _ _ _ => rfl,
      oblivious_memRead16 _ (a := (· + 2#32)) (f := fun v s => { s with res := (zextHalf v <<< 16) ||| s.rt })
        fun _ _ _ _ _ => rfl, trivial⟩
  | decodeCell =>
    exact ⟨oblivious_lowHalf (f := fun v s => { s with res := zextByte (decodeCell v) })
      fun _ _ _ _ _ => rfl, trivial⟩
  | encodeCell => exact oblivious_encodeCell
  | readUser | readRdpr | readWrpr1 | readWrpr0 | readData1 | readData0 =>
    exact ⟨oblivious_readField _ _ _, trivial⟩
  | readData16 =>
    exact ⟨oblivious_readOb _ _ _ (f := fun _ v s => { s with rt := zextByte (decodeCell v) })
        fun _ _ _ _ _ _ => rfl,
      oblivious_readOb _ _ _ (f := fun u v s => { s with res := (u.rt <<< 8) ||| zextByte (decodeCell v) })
        fun _ _ _ _ _ _ => rfl, trivial⟩
  | writeOb16 | writeOb8x2 => exact oblivious_writeObSteps

/-! ## The order of the agents -/

/-- The micro-step does not read the order of the agents, and does not use it up. -/
def TurnFree (m : MicroStep) : Prop :=
  ∀ (k n : Nat) (s : State) (ts : List Agent),
    m k n { s with turns := ts } = (m k n s).map fun t => { t with turns := ts }

theorem Oblivious.turnFree {A D : Word} {m : MicroStep} (h : Oblivious A D m) : TurnFree m := by
  intro k n s ts
  have hsame := h k n s s.turns s.ra s.rd rfl rfl
  have hother := h k n s ts s.ra s.rd rfl rfl
  change m k n s = _ at hsame
  change m k n { s with turns := ts } = _ at hother
  rw [hother]
  cases hm : m k n s with
  | error f => rfl
  | ok t =>
    rw [hm] at hsame
    have ht : t = t.recast s.turns s.ra s.rd := Except.ok.inj hsame
    show Except.ok (t.recast ts s.ra s.rd) = Except.ok { t with turns := ts }
    rw [ht]
    rfl

theorem EachStep.imp {P Q : Nat → MicroStep → Prop} (h : ∀ k m, P k m → Q k m) {ms : List MicroStep}
    {j : Nat} (hp : EachStep P j ms) : EachStep Q j ms := by
  induction ms generalizing j with
  | nil => trivial
  | cons m ms ih => exact ⟨h j m hp.1, ih hp.2⟩

theorem turnFree_program16Steps {j : Nat} : EachStep (fun _ => TurnFree) j program16Steps :=
  oblivious_program16Steps.imp fun _ _ => Oblivious.turnFree

/-- No command reads the order of the agents. -/
theorem turnFree_progOf (op : Op) : EachStep (fun _ => TurnFree) 0 (progOf op) := by
  by_cases h : op = .programFloat
  · subst h
    obtain ⟨h0, h1, h2, h3, h4, h5, -⟩ := turnFree_program16Steps (j := 0)
    exact ⟨h0, h1, h2, h3, h4, h5, fun _ _ _ _ => rfl, turnFree_program16Steps⟩
  · exact (oblivious_progOf h).imp fun _ _ => Oblivious.turnFree

/-- A change of the state that SEQ's step does not see, and does not undo: if the micro-step at `SPC` commutes with
it, SEQ's step does. -/
theorem seqStep_commutes {f : State → State} (hspc : ∀ s, (f s).spc = s.spc)
    (hnext : ∀ s c, f { s with spc := c } = { f s with spc := c })
    (hfin : ∀ s op, f (State.finish op s) = (f s).finish op) {op : Op} {prog : List MicroStep} {s : State}
    (hm : ∀ m, prog[s.spc]? = some m → m s.spc prog.length (f { s with spc := s.spc + 1 }) =
      (m s.spc prog.length { s with spc := s.spc + 1 }).map f) :
    seqStep op prog (f s) = (seqStep op prog s).map f := by
  simp only [seqStep, hspc]
  cases hp : prog[s.spc]? with
  | none => simp only [Except.map, hfin]
  | some m =>
    simp only [← hnext, hm m hp]
    cases m s.spc prog.length { s with spc := s.spc + 1 } with
    | error e => rfl
    | ok t => simp only [Except.map, hspc, ← hfin, apply_ite f]

/-- SEQ's step does not read the order of the agents. -/
theorem seqStep_turns (op : Op) (s : State) (ts : List Agent) :
    seqStep op (progOf op) { s with turns := ts } =
      (seqStep op (progOf op) s).map fun t => { t with turns := ts } :=
  seqStep_commutes (f := fun t => { t with turns := ts }) (fun _ => rfl) (fun _ _ => rfl) (fun _ _ => rfl)
    fun _ hm => (turnFree_progOf op).get hm _ _ _ _

end Sys2Proof.Machine
end

section
/-! PROOFS. The run of a command as a run of agent steps (spec R138, R40): refinement, the invariant of whole
steps, and the fault mark. -/

namespace Sys2Proof.Machine

/-! ## Runs of agent steps -/

/-- Some sequence of agent steps leads from `s` to `t`. -/
def Reaches (s t : State) : Prop := ∃ gs : List Agent, runAgents gs s = .next t

theorem runAgents_append {gs hs : List Agent} {s t u : State} (h : runAgents gs s = .next t)
    (h' : runAgents hs t = .next u) : runAgents (gs ++ hs) s = .next u := by
  induction gs generalizing s with
  | nil => cases h; exact h'
  | cons g gs ih =>
    simp only [runAgents, List.cons_append] at h ⊢
    cases hg : agentStep g s with
    | next v => rw [hg] at h; exact ih h
    | fault f => rw [hg] at h; cases h
    | refused r => rw [hg] at h; cases h

theorem runAgents_one {g : Agent} {s t : State} (h : agentStep g s = .next t) :
    runAgents [g] s = .next t := by
  simp only [runAgents, h]

theorem Reaches.refl (s : State) : Reaches s s := ⟨[], rfl⟩

theorem Reaches.of_step {g : Agent} {s t : State} (h : agentStep g s = .next t) : Reaches s t :=
  ⟨[g], runAgents_one h⟩

theorem Reaches.trans {s t u : State} : Reaches s t → Reaches t u → Reaches s u
  | ⟨gs, h⟩, ⟨hs, h'⟩ => ⟨gs ++ hs, runAgents_append h h'⟩

/-- The invariant holds along every run of agent steps. -/
theorem Reaches.inv {s t : State} (hi : s.Inv) : Reaches s t → t.Inv := by
  rintro ⟨gs, h⟩
  induction gs generalizing s with
  | nil => cases h; exact hi
  | cons g gs ih =>
    simp only [runAgents] at h
    cases hg : agentStep g s with
    | next v => rw [hg] at h; exact ih (agentStep_inv hi hg) h
    | fault f => rw [hg] at h; cases h
    | refused r => rw [hg] at h; cases h

/-! ## The steps of a run, with no order of the agents left -/

/-- HOST's RESET, ENG's completion and SEQ's micro-step are steps of the relation, whatever the order. -/
theorem reaches_reset {s : State} {rest : List HostAction} (ts : List Agent) (hf : s.Safe)
    (hh : s.host = .reset :: rest) :
    Reaches s.calmed (resetStep { s with turns := ts, host := rest }).calmed := by
  refine .of_step (g := .host) ?_
  rw [agentStep_safe (s := s.calmed) hf]
  simp only [agentMove, hh]
  rw [show ({ s with turns := ts, host := rest } : State) =
    { ({ s with host := rest } : State) with turns := ts } from rfl, resetStep_turns]
  exact congrArg Host.Outcome.next (resetStep_turns { s with host := rest } [])

theorem reaches_eng {s : State} (hf : s.Safe) : Reaches s.calmed (engStep s).calmed := by
  refine .of_step (g := .eng) ?_
  rw [agentStep_safe (s := s.calmed) hf]
  exact congrArg Host.Outcome.next (engStep_turns s [])

theorem agentStep_seq_next {op : Op} {s t : State} (hf : s.Safe) (hq : s.seqOp = some op)
    (h : seqStep op (progOf op) s = .ok t) : agentStep .seq s.calmed = .next t.calmed := by
  rw [agentStep_safe (s := s.calmed) hf]
  simp only [agentMove, hq]
  rw [seqStep_turns, h]
  rfl

theorem agentStep_seq_fault {op : Op} {s : State} {f : Fault} (hf : s.Safe) (hq : s.seqOp = some op)
    (h : seqStep op (progOf op) s = .error f) : agentStep .seq s.calmed = .fault f := by
  rw [agentStep_safe (s := s.calmed) hf]
  simp only [agentMove, hq]
  rw [seqStep_turns, h]
  rfl

theorem engStep_keeps (s : State) :
    (engStep s).fault = s.fault ∧ (engStep s).seqOp = s.seqOp ∧ (engStep s).spc = s.spc ∧
    (engStep s).turns = s.turns ∧ (engStep s).host = s.host ∧ (engStep s).cfg = s.cfg ∧
    (engStep s).lock = s.lock := by
  rw [engStep_frame s]
  simp

/-- A run that stands was a run of agent steps; one that faults was, and then SEQ's step faults. -/
def EndsByAgents (s : State) : RunEnd → Prop
  | .stands t => Reaches s.calmed t.calmed
  | .faulted f t => Reaches s.calmed t.calmed ∧ t.fault = none ∧ agentStep .seq t.calmed = .fault f

theorem EndsByAgents.after {s t : State} (h : Reaches s.calmed t.calmed) {e : RunEnd}
    (he : EndsByAgents t e) : EndsByAgents s e := by
  cases e with
  | stands u => exact h.trans he
  | faulted f u => exact ⟨h.trans he.1, he.2⟩

/-- The run of a command is a run of agent steps (log 1). -/
theorem runTo_endsByAgents {op : Op} {n : Nat} {s : State} (hf : s.Safe) (hq : s.seqOp = some op) :
    EndsByAgents s (runTo op (progOf op) n s) := by
  induction n generalizing s with
  | zero => exact .refl _
  | succ n ih =>
    have heng (u : State) (hu : u.fault = none) (hqu : u.seqOp = some op) :
        EndsByAgents (engStep u) (runTo op (progOf op) n (engStep u)) := by
      obtain ⟨hfe, hqe, -⟩ := engStep_keeps u
      exact ih (hfe.trans hu) (hqe.trans hqu)
    have hseq (u t : State) (hfu : u.fault = none) (hqu : u.seqOp = some op)
        (ht : seqStep op (progOf op) u = .ok t) :
        Reaches u.calmed t.calmed ∧ t.fault = none ∧ (¬t.seqOp.isNone = true → t.seqOp = some op) := by
      obtain ⟨-, -, -, hft, -, -, hqt⟩ := seqStep_keeps ht
      refine ⟨.of_step (agentStep_seq_next hfu hqu ht), hft.trans hfu, fun hn => ?_⟩
      rcases hqt with hqt | hqt
      · simp [hqt] at hn
      · exact hqt.trans hqu
    simp only [runTo]
    split
    · rename_i ts _
      split
      · rename_i rest hh
        exact reaches_reset ts hf hh
      · exact ih (s := { s with turns := ts }) hf hq
    · rename_i ts _
      exact .after (reaches_eng (s := { s with turns := ts }) hf) (heng { s with turns := ts } hf hq)
    · rename_i ts _
      split
      · rename_i f hs
        exact ⟨.refl _, hf, agentStep_seq_fault (s := { s with turns := ts }) hf hq hs⟩
      · rename_i t hs
        obtain ⟨hr, hft, hqt⟩ := hseq { s with turns := ts } t hf hq hs
        split
        · exact hr
        · rename_i hn
          exact .after hr (ih hft (hqt hn))
    · split
      · rename_i f hs
        exact ⟨.refl _, hf, agentStep_seq_fault hf hq hs⟩
      · rename_i t hs
        obtain ⟨hr, hft, hqt⟩ := hseq s t hf hq hs
        split
        · exact hr
        · rename_i hn
          have hqt' := hqt hn
          split
          · exact .after hr (ih hft hqt')
          · split
            · exact hr
            · exact .after (hr.trans (reaches_eng hft)) (heng t hft hqt')

/-! ## Commands -/

/-- A command is the run of its micro-program (R93, R138). -/
theorem exec_eq (i : Instr) (s : State) :
    exec i s = runCommand i.op (progOf i.op) i.a i.d s := by
  cases i <;> rfl

/-- The run a command is. -/
def commandRun (i : Instr) (s : State) : RunEnd :=
  runTo i.op (progOf i.op) (runBound s) (s.accept i.op i.a i.d)

theorem exec_eq_outcome (i : Instr) (s : State) : exec i s = (commandRun i s).outcome := exec_eq i s

theorem commandRun_endsByAgents (i : Instr) {s : State} (hf : s.Safe) :
    EndsByAgents (s.accept i.op i.a i.d) (commandRun i s) :=
  runTo_endsByAgents (s := s.accept i.op i.a i.d) hf rfl

/-- HOST presents a command's word, and the port accepts it. -/
theorem agentStep_accepts {s : State} {i : Instr} {rest : List HostAction} {w : CommandWord} (hf : s.Safe)
    (hq : s.seqOp = none) (hh : s.host = .command w :: rest) (hw : decode w = .ok i) :
    agentStep .host s.calmed = .next (({ s with host := rest } : State).accept i.op i.a i.d).calmed := by
  rw [agentStep_safe (s := s.calmed) hf]
  simp only [agentMove, hh, hq, hw]
  rfl

theorem runEnd_next {e : RunEnd} {t : State} (h : e.outcome = .next t) : e = .stands t := by
  cases e <;> cases h
  rfl

theorem runEnd_fault {e : RunEnd} {f : Fault} (h : e.outcome = .fault f) : ∃ t, e = .faulted f t := by
  cases e <;> cases h
  exact ⟨_, rfl⟩

/-- Settles O8: HOST's acceptance, and then the agents of the run. -/
theorem commandIsRunOfAgentSteps : Obligations.CommandIsRunOfAgentSteps := by
  intro i s t hsafe hidle hexec
  have hends := commandRun_endsByAgents i hsafe
  have hrun : (commandRun i s).outcome = .next t := by rw [← exec_eq_outcome, hexec]
  rw [runEnd_next hrun] at hends
  obtain ⟨gs, hgs⟩ := hends
  refine ⟨gs, ?_⟩
  have hacc := agentStep_accepts (s := { s with host := .command (encode i) :: s.host }) hsafe hidle rfl
    (decode_encode i)
  exact runAgents_append (gs := [.host]) (runAgents_one hacc) hgs

/-! ## The step of the block -/

theorem step_idle {s : State} (h : s.Safe) (hq : s.seqOp = none) : step s = idleMove s := by
  simp only [step, blockStep, h, hq]

theorem step_busy {s : State} {op : Op} (h : s.Safe) (hq : s.seqOp = some op) :
    step s = busyMove op s := by
  simp only [step, blockStep, h, hq]

theorem State.Inv.of_calmed {s : State} (h : s.calmed.Inv) : s.Inv := h.registers h.spc_small rfl

theorem State.Inv.calmed {s : State} (h : s.Inv) : s.calmed.Inv := h.registers h.spc_small rfl

/-- A run keeps the invariant, as each of its steps does. -/
theorem runTo_inv {op : Op} {n : Nat} {s t : State} (hf : s.Safe) (hq : s.seqOp = some op) (hi : s.Inv)
    (h : runTo op (progOf op) n s = .stands t) : t.Inv := by
  have hends := runTo_endsByAgents (n := n) hf hq
  rw [h] at hends
  exact (hends.inv hi.calmed).of_calmed

theorem exec_inv {i : Instr} {s t : State} (hf : s.Safe) (hi : s.Inv) (h : exec i s = .next t) : t.Inv := by
  rw [exec_eq_outcome] at h
  exact runTo_inv (s := s.accept i.op i.a i.d) hf rfl (hi.accept _ _ _) (runEnd_next h)

theorem hostMove_inv {s t : State} (hf : s.Safe) (hi : s.Inv) (h : hostMove s = .next t) : t.Inv := by
  simp only [hostMove] at h
  split at h
  · cases h; exact hi
  · cases h; exact resetStep_inv (hi.withHost _ s.turns)
  · rename_i rest _
    split at h
    · cases h
    · exact exec_inv (s := { s with host := rest }) hf (hi.withHost rest s.turns) h

theorem idleMove_inv {s t : State} (hf : s.Safe) (hi : s.Inv) (h : idleMove s = .next t) : t.Inv := by
  simp only [idleMove] at h
  split at h
  · rename_i ts _
    exact hostMove_inv (s := { s with turns := ts }) hf (hi.withHost s.host ts) h
  · cases h; exact hi.withHost s.host _
  · cases h; exact engStep_inv (hi.withHost s.host _)
  · split at h
    · cases h; exact engStep_inv hi
    · exact hostMove_inv hf hi h

theorem busyMove_inv {op : Op} {s t : State} (hf : s.Safe) (hq : s.seqOp = some op) (hi : s.Inv)
    (h : busyMove op s = .next t) : t.Inv := by
  simp only [busyMove] at h
  split at h
  · cases h; exact resetStep_inv (hi.withHost _ s.turns)
  · exact runTo_inv hf hq hi (runEnd_next h)

/-- Settles O12: a step of the block is made of agent steps, each of which keeps the invariant. -/
theorem stepKeepsInvariant : Obligations.StepKeepsInvariant := by
  intro s t hi h
  cases hf : s.fault with
  | some f => simp only [step, blockStep, hf] at h; cases h
  | none =>
    rcases Option.eq_none_or_eq_some s.seqOp with hq | ⟨op, hq⟩
    · exact idleMove_inv hf hi (step_idle hf hq ▸ h)
    · exact busyMove_inv hf hq hi (step_busy hf hq ▸ h)

/-! ## The fault mark -/

theorem marked_of_safe {s : State} (h : s.Safe) (f : Fault) : s.marked f = { s with fault := some f } := by
  simp only [State.marked, h, Option.getD_none]

theorem runMarked_append (gs hs : List Agent) (s : State) :
    runMarked (gs ++ hs) s = runMarked hs (runMarked gs s) := by
  induction gs generalizing s with
  | nil => rfl
  | cons g gs ih => exact ih _

/-- A run that faults in `t` marks the fault there: the agents of the run lead to the mark. -/
theorem marks_of_faulted {s t : State} {f : Fault} (h : EndsByAgents s (.faulted f t)) :
    (t.marked f).fault = some f ∧ ∃ gs, runMarked gs s.calmed = (t.marked f).calmed := by
  obtain ⟨⟨gs, hgs⟩, hft, hfault⟩ := h
  refine ⟨by rw [marked_of_safe hft], gs ++ [.seq], ?_⟩
  rw [runMarked_append, runMarked_of_runAgents hgs, runMarked_cons, runMarked_nil, markedAgentStep, hfault]
  rfl

/-- Where the step of the block faults, it is in the run of a command: the one left running, or the one whose
word HOST presents. -/
theorem step_fault_cases {s : State} {f : Fault} (hf : s.Safe) (h : step s = .fault f) :
    (∃ op t, s.seqOp = some op ∧ runTo op (progOf op) (runBound s) s = .faulted f t ∧ stopState s = t) ∨
    (∃ w rest i t, s.seqOp = none ∧ s.host = .command w :: rest ∧ decode w = .ok i ∧
      commandRun i { s with host := rest, turns := s.turns.tail } = .faulted f t ∧ stopState s = t) := by
  have hhost (u : State) (hu : u = { s with turns := s.turns.tail }) (hq : s.seqOp = none)
      (h : hostMove u = .fault f) :
      ∃ w rest i t, s.seqOp = none ∧ s.host = .command w :: rest ∧ decode w = .ok i ∧
        commandRun i { s with host := rest, turns := s.turns.tail } = .faulted f t ∧ stopState s = t := by
    subst hu
    simp only [hostMove] at h
    split at h
    · cases h
    · cases h
    · rename_i w rest hh
      split at h
      · cases h
      · rename_i i hw
        rw [exec_eq_outcome] at h
        obtain ⟨t, ht⟩ := runEnd_fault h
        refine ⟨w, rest, i, t, hq, hh, hw, ht, ?_⟩
        simp only [stopState, hq, hh, hw]
        exact congrArg RunEnd.state ht
  rcases Option.eq_none_or_eq_some s.seqOp with hq | ⟨op, hq⟩
  · rw [step_idle hf hq] at h
    simp only [idleMove] at h
    split at h
    · rename_i ts hts
      exact .inr (hhost _ (by rw [hts]; rfl) hq h)
    · cases h
    · cases h
    · rename_i hts
      split at h
      · cases h
      · exact .inr (hhost s (by rw [hts]; cases s; simp_all) hq h)
  · rw [step_busy hf hq] at h
    simp only [busyMove] at h
    split at h
    · cases h
    · obtain ⟨t, ht⟩ := runEnd_fault h
      refine .inl ⟨op, t, hq, ht, ?_⟩
      simp only [stopState, hq, ht]
      rfl

/-- The step refuses a word only, and stops where it stands. -/
theorem stopState_of_refused {s : State} {r : Refusal} (hf : s.Safe) (h : step s = .refused r) :
    stopState s = s := by
  have hhost (u : State) (hu : u.host = s.host) (hq : s.seqOp = none) (h : hostMove u = .refused r) :
      stopState s = s := by
    simp only [hostMove, hu] at h
    split at h
    · cases h
    · cases h
    · rename_i w rest hh
      split at h
      · rename_i e hw
        simp only [stopState, hq, hh, hw]
      · rw [exec_eq_outcome] at h
        cases he : commandRun _ { u with host := rest } <;> rw [he] at h <;> cases h
  cases hq : s.seqOp with
  | none =>
    rw [step_idle hf hq] at h
    simp only [idleMove] at h
    split at h
    · exact hhost _ (by rfl) hq h
    · cases h
    · cases h
    · split at h
      · cases h
      · exact hhost s rfl hq h
  | some op =>
    rw [step_busy hf hq] at h
    simp only [busyMove] at h
    split at h
    · cases h
    · cases he : runTo op (progOf op) (runBound s) s <;> simp only [drive, he] at h <;> cases h

/-- Settles O19: with a fault marked no step is enabled; a step that faults marks the state its run stops in. -/
theorem faultMarkIsFirstAndFinal : Obligations.FaultMarkIsFirstAndFinal := by
  intro s
  refine ⟨?_, ?_, ?_, ?_, ?_⟩
  · intro f hf
    refine ⟨?_, ?_, fun g => ⟨agentStep_marked hf g, markedAgentStep_marked hf g⟩⟩
    · simp only [step, blockStep, hf]
    · simp only [markedStep, hf]
  · intro g f hf h
    rw [markedAgentStep, h, markOutcome_fault, marked_of_safe hf]
  · intro g hf h
    rw [markedAgentStep, h, markOutcome_refused, marked_of_safe hf]
  · intro hf h
    simp only [markedStep, hf]
    rw [stopState_of_refused hf h, show blockStep s = _ from h, markOutcome_refused, marked_of_safe hf]
  · intro f hf h
    have hmark : markedStep s = (stopState s).marked f := by
      simp only [markedStep, hf]
      rw [show blockStep s = _ from h, markOutcome_fault]
    rw [hmark]
    rcases step_fault_cases hf h with ⟨op, t, hq, hrun, rfl⟩ | ⟨w, rest, i, t, hq, hh, hw, hrun, rfl⟩
    · have hends := runTo_endsByAgents (n := runBound s) hf hq
      rw [hrun] at hends
      exact marks_of_faulted hends
    · have hends := commandRun_endsByAgents i (s := { s with host := rest, turns := s.turns.tail }) hf
      rw [hrun] at hends
      obtain ⟨hfault, gs, hgs⟩ := marks_of_faulted hends
      refine ⟨hfault, .host :: gs, ?_⟩
      rw [runMarked_cons, markedAgentStep, agentStep_accepts hf hq hh hw, markOutcome_next]
      exact hgs

end Sys2Proof.Machine
end

section
/-! PROOFS. One equation per turn of a run (spec R138, R219; log 2). -/

namespace Sys2Proof.Machine

section
variable {op : Op} {prog : List MicroStep} {n : Nat} {s t : State} {f : Fault} {ts : List Agent}

theorem runTo_reset_turn {rest : List HostAction} (h : s.turns = .host :: ts)
    (hh : s.host = .reset :: rest) :
    runTo op prog (n + 1) s = .stands (resetStep { s with turns := ts, host := rest }) := by
  simp only [runTo, h, hh]

theorem runTo_passed_turn (h : s.turns = .host :: ts) (hh : s.host.head? ≠ some .reset) :
    runTo op prog (n + 1) s = runTo op prog n { s with turns := ts } := by
  simp only [runTo, h]
  split
  · rename_i hr
    simp [hr] at hh
  · rfl

theorem runTo_eng_turn (h : s.turns = .eng :: ts) :
    runTo op prog (n + 1) s = runTo op prog n (engStep { s with turns := ts }) := by
  simp only [runTo, h]

theorem runTo_seq_fault (h : s.turns = .seq :: ts)
    (hs : seqStep op prog { s with turns := ts } = .error f) :
    runTo op prog (n + 1) s = .faulted f s := by
  simp only [runTo, h, hs]

theorem runTo_seq_ends (h : s.turns = .seq :: ts) (hs : seqStep op prog { s with turns := ts } = .ok t)
    (hq : t.seqOp = none) : runTo op prog (n + 1) s = .stands t := by
  simp only [runTo, h, hs, hq, Option.isNone_none, if_true]

theorem runTo_seq_more (h : s.turns = .seq :: ts) (hs : seqStep op prog { s with turns := ts } = .ok t)
    (hq : t.seqOp ≠ none) : runTo op prog (n + 1) s = runTo op prog n t := by
  simp only [runTo, h, hs, Option.isNone_iff_eq_none, if_neg hq]

theorem runTo_calm_fault (h : s.turns = []) (hs : seqStep op prog s = .error f) :
    runTo op prog (n + 1) s = .faulted f s := by
  simp only [runTo, h, hs]

theorem runTo_calm_ends (h : s.turns = []) (hs : seqStep op prog s = .ok t) (hq : t.seqOp = none) :
    runTo op prog (n + 1) s = .stands t := by
  simp only [runTo, h, hs, hq, Option.isNone_none, if_true]

theorem runTo_calm_more (h : s.turns = []) (hs : seqStep op prog s = .ok t) (hq : t.seqOp ≠ none)
    (hspc : t.spc ≠ s.spc) : runTo op prog (n + 1) s = runTo op prog n t := by
  simp only [runTo, h, hs, Option.isNone_iff_eq_none, if_neg hq, if_pos hspc]

theorem runTo_calm_hangs (h : s.turns = []) (hs : seqStep op prog s = .ok t) (hq : t.seqOp ≠ none)
    (hspc : t.spc = s.spc) (hp : t.pend = .none) : runTo op prog (n + 1) s = .stands t := by
  simp only [runTo, h, hs, Option.isNone_iff_eq_none, if_neg hq, if_neg (not_not.mpr hspc), if_pos hp]

theorem runTo_calm_eng (h : s.turns = []) (hs : seqStep op prog s = .ok t) (hq : t.seqOp ≠ none)
    (hspc : t.spc = s.spc) (hp : t.pend ≠ .none) :
    runTo op prog (n + 1) s = runTo op prog n (engStep t) := by
  simp only [runTo, h, hs, Option.isNone_iff_eq_none, if_neg hq, if_neg (not_not.mpr hspc), if_neg hp]

end

end Sys2Proof.Machine
end

section
/-! PROOFS. Two runs side by side: the operand bits a command does not use (spec R92), and the hidden option lock
(R30). -/

namespace Sys2Proof.Machine

/-! ## Runs that stay related -/

/-- Two ends of a run agree: both stand, in related states, or both fault alike. -/
def EndsAlike (Q : State → State → Prop) : RunEnd → RunEnd → Prop
  | .stands t, .stands u => Q t u
  | .faulted f _, .faulted g _ => f = g
  | _, _ => False

/-- Two micro-steps agree: both are taken, to related states, or both fault alike. -/
def StepsAlike (R : State → State → Prop) : Except Fault State → Except Fault State → Prop
  | .ok t, .ok u => R t u
  | .error f, .error g => f = g
  | _, _ => False

/-- A relation that the steps of the agents keep: related states show the agents the same `SPC`, `PEND`, order and
host, and a RESET taken in both leaves them as `Q` asks. -/
structure Keeps (R Q : State → State → Prop) (op : Op) : Prop where
  view : ∀ {s u}, R s u → u.turns = s.turns ∧ u.host = s.host ∧ u.spc = s.spc ∧ u.pend = s.pend ∧
    u.seqOp = s.seqOp
  turn : ∀ {s u g ts}, R s u → s.turns = g :: ts → R { s with turns := ts } { u with turns := ts }
  eng : ∀ {s u}, R s u → R (engStep s) (engStep u)
  seq : ∀ {s u}, R s u → StepsAlike R (seqStep op (progOf op) s) (seqStep op (progOf op) u)
  reset : ∀ {s u g ts rest}, R s u → s.turns = g :: ts →
    Q (resetStep { s with turns := ts, host := rest }) (resetStep { u with turns := ts, host := rest })
  stands : ∀ {s u}, R s u → Q s u

/-- Runs from related states end alike. -/
theorem Keeps.runTo {R Q : State → State → Prop} {op : Op} (h : Keeps R Q op) {n : Nat} {s u : State}
    (hr : R s u) : EndsAlike Q (runTo op (progOf op) n s) (runTo op (progOf op) n u) := by
  induction n generalizing s u with
  | zero => exact h.stands hr
  | succ n ih =>
    obtain ⟨hturns, hhost, hspc, -, -⟩ := h.view hr
    cases hts : s.turns with
    | nil =>
      have hstep := h.seq hr
      cases hs : seqStep op (progOf op) s <;> cases hu : seqStep op (progOf op) u <;>
        rw [hs, hu] at hstep
      · rw [runTo_calm_fault hts hs, runTo_calm_fault (hturns.trans hts) hu]
        exact hstep
      · exact hstep.elim
      · exact hstep.elim
      · rename_i t t'
        obtain ⟨-, -, hspc', hpend, hop⟩ := h.view hstep
        have hspc'' : t'.spc = u.spc ↔ t.spc = s.spc := by rw [hspc', hspc]
        by_cases hq : t.seqOp = none
        · rw [runTo_calm_ends hts hs hq, runTo_calm_ends (hturns.trans hts) hu (hop.trans hq)]
          exact h.stands hstep
        · have hq' : t'.seqOp ≠ none := by rwa [hop]
          by_cases hsp : t.spc = s.spc
          · by_cases hp : t.pend = .none
            · rw [runTo_calm_hangs hts hs hq hsp hp,
                runTo_calm_hangs (hturns.trans hts) hu hq' (hspc''.mpr hsp) (hpend.trans hp)]
              exact h.stands hstep
            · rw [runTo_calm_eng hts hs hq hsp hp, runTo_calm_eng (hturns.trans hts) hu hq'
                (hspc''.mpr hsp) (by rwa [hpend])]
              exact ih (h.eng hstep)
          · rw [runTo_calm_more hts hs hq hsp,
              runTo_calm_more (hturns.trans hts) hu hq' (fun e => hsp (hspc''.mp e))]
            exact ih hstep
    | cons g ts =>
      have hut := hturns.trans hts
      have hr' := h.turn hr hts
      cases g with
      | host =>
        by_cases hh : s.host.head? = some .reset
        · obtain ⟨rest, hrest⟩ := List.head?_eq_some_iff.mp hh
          rw [runTo_reset_turn hts hrest, runTo_reset_turn hut (hhost.trans hrest)]
          exact h.reset hr hts
        · rw [runTo_passed_turn hts hh, runTo_passed_turn hut (by rwa [hhost])]
          exact ih hr'
      | eng =>
        rw [runTo_eng_turn hts, runTo_eng_turn hut]
        exact ih (h.eng hr')
      | seq =>
        have hstep := h.seq hr'
        cases hs : seqStep op (progOf op) { s with turns := ts } <;>
          cases hu : seqStep op (progOf op) { u with turns := ts } <;> rw [hs, hu] at hstep
        · rw [runTo_seq_fault hts hs, runTo_seq_fault hut hu]
          exact hstep
        · exact hstep.elim
        · exact hstep.elim
        · rename_i t t'
          obtain ⟨-, -, -, -, hop⟩ := h.view hstep
          by_cases hq : t.seqOp = none
          · rw [runTo_seq_ends hts hs hq, runTo_seq_ends hut hu (hop.trans hq)]
            exact h.stands hstep
          · rw [runTo_seq_more hts hs hq, runTo_seq_more hut hu (by rwa [hop])]
            exact ih hstep

/-! ## Operand bits that are not used (R92) -/

/-- RESET keeps the parameters, the mark, HOST's list, the response and the order of the agents (R241). -/
theorem resetStep_keeps (s : State) :
    (resetStep s).fault = s.fault ∧ (resetStep s).cfg = s.cfg ∧ (resetStep s).host = s.host ∧
    (resetStep s).response = s.response ∧ (resetStep s).turns = s.turns := by
  rw [resetStep, spoil_frame s]
  simp

/-- The other state has other operands that agree on the bits the command uses. -/
def SameOperands (op : Op) (s u : State) : Prop :=
  u = s.recast s.turns u.ra u.rd ∧ u.ra &&& op.usedA = s.ra &&& op.usedA ∧
    u.rd &&& op.usedD = s.rd &&& op.usedD

/-- The states agree but for the operands. -/
def SameButOperands (s u : State) : Prop :=
  ({ s with ra := 0#32, rd := 0#32 } : State) = { u with ra := 0#32, rd := 0#32 }

/-- SEQ's step reads of the operands only the bits the command uses. -/
theorem seqStep_recast {op : Op} (hop : op ≠ .programFloat) {s : State} {ts : List Agent} {x y : Word}
    (hx : x &&& op.usedA = s.ra &&& op.usedA) (hy : y &&& op.usedD = s.rd &&& op.usedD) :
    seqStep op (progOf op) (s.recast ts x y) = (seqStep op (progOf op) s).map (·.recast ts x y) :=
  seqStep_commutes (f := (·.recast ts x y)) (fun _ => rfl) (fun _ _ => rfl) (fun _ _ => rfl)
    fun _ hm => (oblivious_progOf hop).get hm _ _ _ _ _ _ hx hy

/-- SEQ's step keeps the operands. -/
theorem seqStep_operands {op : Op} (hop : op ≠ .programFloat) {s t : State}
    (h : seqStep op (progOf op) s = .ok t) : t = t.recast s.turns s.ra s.rd := by
  have hsame := seqStep_recast hop (s := s) (ts := s.turns) rfl rfl
  change seqStep op (progOf op) s = _ at hsame
  rw [h] at hsame
  exact Except.ok.inj hsame

theorem stepsAlike_of_map {R : State → State → Prop} {f : State → State} {e e' : Except Fault State}
    (he : e' = e.map f) (hR : ∀ t, e = .ok t → R t (f t)) : StepsAlike R e e' := by
  subst he
  cases e with
  | error f => rfl
  | ok t => exact hR t rfl

theorem keeps_sameOperands {op : Op} (hop : op ≠ .programFloat) :
    Keeps (SameOperands op) SameButOperands op where
  view := by
    rintro s u ⟨hu, -⟩
    rw [hu]
    exact ⟨rfl, rfl, rfl, rfl, rfl⟩
  turn := by
    rintro s u g ts ⟨hu, hx, hy⟩ -
    refine ⟨?_, hx, hy⟩
    rw [hu]
    rfl
  eng := by
    rintro s u ⟨hu, hx, hy⟩
    have hra : (engStep s).ra = s.ra := by rw [engStep_frame]
    have hrd : (engStep s).rd = s.rd := by rw [engStep_frame]
    have hts : (engStep s).turns = s.turns := by rw [engStep_frame]
    rw [hu, engStep_recast]
    refine ⟨by rw [hts]; rfl, ?_, ?_⟩
    · rw [hra]; exact hx
    · rw [hrd]; exact hy
  seq := by
    rintro s u ⟨hu, hx, hy⟩
    refine stepsAlike_of_map (f := (·.recast s.turns u.ra u.rd)) (hu ▸ seqStep_recast hop hx hy) ?_
    intro t ht
    have hkeep := seqStep_operands hop ht
    have hra : t.ra = s.ra := by rw [hkeep]; rfl
    have hrd : t.rd = s.rd := by rw [hkeep]; rfl
    have hts : t.turns = s.turns := by rw [hkeep]; rfl
    exact ⟨by rw [hts]; rfl, by rw [hra]; exact hx, by rw [hrd]; exact hy⟩
  reset := by
    rintro s u g ts rest ⟨hu, -, -⟩ -
    have hreset := resetStep_recast { s with turns := ts, host := rest } ts u.ra u.rd
    rw [show ({ u with turns := ts, host := rest } : State) =
      State.recast { s with turns := ts, host := rest } ts u.ra u.rd by rw [hu]; rfl, hreset]
    have hts := (resetStep_keeps { s with turns := ts, host := rest }).2.2.2.2
    simp only [SameButOperands, hts]
  stands := by
    rintro s u ⟨hu, -, -⟩
    rw [SameButOperands, hu]
    rfl

theorem sameUpToOperands_of_endsAlike {e e' : RunEnd} (h : EndsAlike SameButOperands e e') :
    sameUpToOperands e.outcome e'.outcome := by
  cases e <;> cases e' <;> exact h

/-- PROGRAM_FLOAT uses every bit of its operands. -/
theorem canonical_programFloat (a d : Word) :
    (Instr.programFloat a d).canonical = .programFloat a d := by
  have hall (u : Word) : u &&& 0xFFFFFFFF#32 = u := BitVec.and_allOnes
  show Instr.programFloat (a &&& 0xFFFFFFFF#32) (d &&& 0xFFFFFFFF#32) = _
  rw [hall, hall]

/-- Settles O5: but for PROGRAM_FLOAT, which uses every bit, no micro-step reads an unused bit or moves the
operands, so that the two runs stay related. -/
theorem unusedBitsHaveNoEffect : Obligations.UnusedBitsHaveNoEffect := by
  intro i s
  by_cases hop : i.op = .programFloat
  · have hi : i.canonical = i := by
      rw [← i.op_instr_self, hop]
      exact canonical_programFloat _ _
    rw [hi]
    cases exec i s <;> rfl
  · have hc : i.canonical.op = i.op := (Laws.Rebuilt.all i).2.2.1
    have ha : i.canonical.a = i.a &&& i.op.usedA := Op.a_instr _ _ _
    have hd : i.canonical.d = i.d &&& i.op.usedD := Op.d_instr _ _ _
    rw [exec_eq_outcome, exec_eq_outcome, commandRun, commandRun, hc, ha, hd]
    apply sameUpToOperands_of_endsAlike
    refine (keeps_sameOperands hop).runTo ⟨rfl, ?_, ?_⟩
    · exact (BitVec.and_assoc _ _ _).trans (by rw [BitVec.and_self]; rfl)
    · exact (BitVec.and_assoc _ _ _).trans (by rw [BitVec.and_self]; rfl)

/-! ## The option lock (R30) -/

/-- The micro-step neither reads nor writes the option lock. -/
def OblFree (m : MicroStep) : Prop :=
  ∀ (k n : Nat) (s : State) (b : Bool),
    m k n { s with obl := b } = (m k n s).map fun t => { t with obl := b }

theorem readMain_obl (i : Nat) (s : State) (b : Bool) :
    readMain i { s with obl := b } = ((readMain i s).1, { (readMain i s).2 with obl := b }) := by
  simp only [readMain]
  split_ifs <;> rfl

theorem memRead8_obl (a : Word) (s : State) (b : Bool) :
    memRead8 a { s with obl := b } = (memRead8 a s).map fun r => (r.1, { r.2 with obl := b }) := by
  simp only [memRead8, readMain_obl, apply_ite (Except.map _)]
  rfl

theorem memRead16_obl (a : Word) (s : State) (b : Bool) :
    memRead16 a { s with obl := b } = (memRead16 a s).map fun r => (r.1, { r.2 with obl := b }) := by
  simp only [memRead16, readMain_obl, apply_ite (Except.map _)]
  rfl

theorem readOb_obl (c : CellId) (s : State) (b : Bool) :
    readOb c { s with obl := b } = ((readOb c s).1, { (readOb c s).2 with obl := b }) := by
  simp only [readOb]
  split_ifs <;> rfl

theorem oblFree_act {f : State → State} (h : ∀ s b, f { s with obl := b } = { f s with obl := b }) :
    OblFree (act f) :=
  fun _ _ s b => congrArg Except.ok (h s b)

theorem oblFree_loadByte : OblFree loadByte := by
  intro k n s b
  simp only [loadByte, actOrFault, memRead8_obl]
  cases memRead8 s.ra s <;> rfl

theorem oblFree_memRead16 {a : Word → Word} {f : Half → State → State}
    (hf : ∀ v s b, f v { s with obl := b } = { f v s with obl := b }) :
    OblFree (actOrFault fun s =>
      match memRead16 (a s.ra) s with
      | .error e => .error e
      | .ok (v, s) => .ok (f v s)) := by
  intro k n s b
  simp only [actOrFault, memRead16_obl]
  cases memRead16 (a s.ra) s with
  | error e => rfl
  | ok r => exact congrArg Except.ok (hf r.1 r.2 b)

theorem oblFree_readOb (c : CellId) {f : State → Half → State → State}
    (hf : ∀ u v s b, f { u with obl := b } v { s with obl := b } = { f u v s with obl := b }) :
    OblFree (act fun s => f s (readOb c s).1 (readOb c s).2) := by
  refine oblFree_act fun s b => ?_
  rw [readOb_obl, hf]

theorem oblFree_readField (c : CellId) : OblFree (readField c) :=
  oblFree_readOb c (f := fun _ v s => { s with res := zextByte (decodeCell v) }) fun _ _ _ _ => rfl

theorem oblFree_ldob : EachStep (fun _ => OblFree) 0 progLdob := by
  refine ⟨?_, trivial⟩
  intro k n s b
  simp only [actOrFault, obRead]
  cases cellOf (cellOperand s.ra) with
  | none => rfl
  | some c => simp only [readOb_obl]; rfl

/-- No command that returns a value reads or writes the option lock. -/
theorem oblFree_progOf {op : Op} (h : hasResult op = true) : EachStep (fun _ => OblFree) 0 (progOf op) := by
  cases op with
  | rdStatr | rdCtlr | calcAddr | isBusy | isDone | isWperr | decodeCell | encodeCell =>
    exact ⟨oblFree_act fun _ _ => rfl, trivial⟩
  | ld8 | read8 => exact ⟨oblFree_loadByte, trivial⟩
  | ld16 | read16 =>
    exact ⟨oblFree_memRead16 (a := id) (f := fun v s => { s with res := zextHalf v }) fun _ _ _ => rfl,
      trivial⟩
  | ldob => exact oblFree_ldob
  | readFloat =>
    exact ⟨oblFree_memRead16 (a := id) (f := fun v s => { s with rt := zextHalf v }) fun _ _ _ => rfl,
      oblFree_memRead16 (a := (· + 2#32)) (f := fun v s => { s with res := (zextHalf v <<< 16) ||| s.rt })
        fun _ _ _ => rfl, trivial⟩
  | readUser | readRdpr | readWrpr1 | readWrpr0 | readData1 | readData0 =>
    exact ⟨oblFree_readField _, trivial⟩
  | readData16 =>
    exact ⟨oblFree_readOb _ (f := fun _ v s => { s with rt := zextByte (decodeCell v) })
        fun _ _ _ _ => rfl,
      oblFree_readOb _ (f := fun u v s => { s with res := (u.rt <<< 8) ||| zextByte (decodeCell v) })
        fun _ _ _ _ => rfl, trivial⟩
  | wrStatr | wrCtlr | wrKeyr | wrObkeyr | wrAddr | st16 | stob | unlock | unlockOb | lock | clearDone
  | waitNotBusy | waitDone | erasePage | program16 | program8x2 | programFloat | writeOb16 | writeOb8x2 =>
    cases h

/-- The other state has the option lock `b`, and no order of the agents is left. -/
def SameButObl (b : Bool) (s u : State) : Prop := s.turns = [] ∧ u = { s with obl := b }

theorem keeps_sameButObl {op : Op} (hop : hasResult op = true) (b : Bool) :
    Keeps (SameButObl b) (SameButObl b) op where
  view := by
    rintro s u ⟨-, rfl⟩
    exact ⟨rfl, rfl, rfl, rfl, rfl⟩
  turn := by
    rintro s u g ts ⟨hcalm, -⟩ hts
    simp [hcalm] at hts
  eng := by
    rintro s u ⟨hcalm, rfl⟩
    have hts : (engStep s).turns = s.turns := by rw [engStep_frame]
    exact ⟨hts.trans hcalm, engStep_obl s b⟩
  seq := by
    rintro s u ⟨hcalm, rfl⟩
    refine stepsAlike_of_map (f := fun t => { t with obl := b }) ?_ ?_
    · exact seqStep_commutes (f := fun t => { t with obl := b }) (fun _ => rfl) (fun _ _ => rfl)
        (fun _ _ => rfl) fun _ hm => (oblFree_progOf hop).get hm _ _ _ _
    · intro t ht
      obtain ⟨-, -, -, -, -, hts, -⟩ := seqStep_keeps ht
      exact ⟨hts.trans hcalm, rfl⟩
  reset := by
    rintro s u g ts rest ⟨hcalm, -⟩ hts
    simp [hcalm] at hts
  stands := id

/-- Settles O18: the micro-steps of these commands do not read `OBL`, so that the two runs differ in it alone. -/
theorem noValueDependsOnOptionLock : Obligations.NoValueDependsOnOptionLock := by
  intro i s b hres hcalm
  have hrun : EndsAlike (SameButObl b) (commandRun i s) (commandRun i { s with obl := b }) :=
    (keeps_sameButObl hres b).runTo ⟨hcalm, rfl⟩
  rw [exec_eq_outcome, exec_eq_outcome]
  cases hs : commandRun i s <;> cases hu : commandRun i { s with obl := b } <;>
    simp only [hs, hu, EndsAlike] at hrun
  · obtain ⟨-, rfl⟩ := hrun
    exact ⟨fun f h => (by cases h), fun t h => (by cases h; rfl)⟩
  · subst hrun
    exact ⟨fun f h => h, fun t h => (by cases h)⟩

end Sys2Proof.Machine
end

section
/-! PROOFS. How a run of a command ends: a rule for properties of the state it stands in, and the one command that
can be left running (spec R219). -/

namespace Sys2Proof.Machine

/-! ## Where SEQ's step leaves `SPC` -/

/-- What a poll of command `op` waits for is not there: the block is busy, or WAIT_DONE sees the done flag clear. -/
def InVain (op : Op) (s : State) : Prop :=
  bitOf (statrWord s) s.cfg.bsyBit = true ∨ op = .waitDone ∧ bitOf (statrWord s) s.cfg.eopBit = false

/-- A micro-step goes on, leaves the command, or polls in vain and changes RT alone. -/
theorem Effect.moves {op : Op} {m : MicroStep} {k n : Nat} {s t : State} (h : Effect op m k n s t) :
    t.spc = s.spc ∨ t.spc = n ∨ t = { s with rt := statrWord s, spc := k } ∧ InVain op s ∧
      (m = spinNotBusy ∨ op = .waitDone ∧ m = spinDone) := by
  cases h with
  | registers h => exact .inl (by rw [h])
  | leaves h => exact .inr (.inl (by rw [h]))
  | polls hm hv h => exact .inr (.inr ⟨h, hv, hm⟩)
  | statr v h => exact .inl (by rw [h]; rfl)
  | keyr v h hv => rcases regWriteKeyr_cases v s with e | ⟨-, -, e⟩ <;> exact .inl (by rw [h, e])
  | obkeyr v h hv => rcases regWriteObkeyr_cases v s with e | ⟨-, -, e⟩ <;> exact .inl (by rw [h, e])
  | ctlr v h => exact .inl (by rw [regWriteCtlr_frame h])
  | addr v h => exact .inl (by rw [(regWriteAddr_ok.mp h).2])
  | store a v h => obtain ⟨-, -, -, ⟨-, rfl⟩ | ⟨-, -, rfl⟩⟩ := memWrite16_cases h <;> exact .inl rfl
  | obStore c v h => obtain ⟨-, ⟨-, rfl⟩ | ⟨-, -, -, rfl⟩⟩ := writeOb_cases h <;> exact .inl rfl

/-- SEQ's step ends the command, goes on to the next micro-step, or polls in vain. -/
theorem seqStep_moves {op : Op} {s t : State} (hq : s.seqOp = some op)
    (hlt : s.spc < (progOf op).length) (h : seqStep op (progOf op) s = .ok t) :
    t.seqOp = none ∨
    (t.seqOp = some op ∧ t.spc = s.spc + 1 ∧ t.spc < (progOf op).length) ∨
    (t = { s with rt := statrWord s } ∧ InVain op s ∧
      ((progOf op)[s.spc]? = some spinNotBusy ∨ (progOf op)[s.spc]? = some spinDone)) := by
  rcases seqStep_cases h with ⟨hn, -⟩ | ⟨m, u, hm, hu, ⟨-, rfl⟩ | ⟨hlen, rfl⟩⟩
  · have hle := List.getElem?_eq_none_iff.mp hn
    omega
  · exact .inl rfl
  · have he := hasEffect_of_get hm _ _ _ hu
    obtain ⟨-, -, -, hop, -⟩ := he.keeps
    rcases he.moves with hs | hs | ⟨hs, hv, rfl | ⟨-, rfl⟩⟩
    · exact .inr (.inl ⟨hop.trans hq, hs, hlen⟩)
    · omega
    · exact .inr (.inr ⟨hs, hv, .inl hm⟩)
    · exact .inr (.inr ⟨hs, hv, .inr hm⟩)

/-! ## The rule -/

/-- What a run needs at most: each entry of the order, each micro-step twice, and the completion of what is
pending. -/
def stepsLeft (op : Op) (s : State) : Nat :=
  s.turns.length + 2 * ((progOf op).length - s.spc) + if s.pend = .none then 0 else 1

/-- No run of a command reaches the bound on its steps (log 13). -/
theorem stepsLeft_le_runBound (op : Op) (s : State) : stepsLeft op s ≤ runBound s := by
  have hlen := (length_progOf op).2
  unfold stepsLeft runBound
  split <;> omega

/-- A turn uses up an entry of the order. -/
theorem stepsLeft_turn (op : Op) {s : State} {g : Agent} {ts : List Agent} (h : s.turns = g :: ts) :
    stepsLeft op { s with turns := ts } < stepsLeft op s := by
  simp only [stepsLeft, h, List.length_cons]
  omega

/-- A micro-step that goes on leaves fewer, whatever it starts. -/
theorem stepsLeft_advance {op : Op} {s t : State} (hturns : t.turns = s.turns) (hspc : t.spc = s.spc + 1)
    (hlt : t.spc < (progOf op).length) : stepsLeft op t < stepsLeft op s := by
  unfold stepsLeft
  rw [hturns]
  split <;> split <;> omega

/-- ENG's completion takes no step more. -/
theorem stepsLeft_eng_le (op : Op) (s : State) : stepsLeft op (engStep s) ≤ stepsLeft op s := by
  obtain ⟨-, -, hspc, hturns, -⟩ := engStep_keeps s
  unfold stepsLeft
  rw [engStep_pend, hturns, hspc, if_pos rfl]
  omega

theorem stepsLeft_eng_lt (op : Op) {s : State} (hp : s.pend ≠ .none) :
    stepsLeft op (engStep s) < stepsLeft op s := by
  obtain ⟨-, -, hspc, hturns, -⟩ := engStep_keeps s
  unfold stepsLeft
  rw [engStep_pend, hturns, hspc, if_pos rfl, if_neg hp]
  omega

/-- `J` is kept by the steps of the agents in a run of `op`, and gives `P` where the run stands: at RESET, at the
end of the command, or where a poll in vain finds nothing pending. -/
structure RunInvariant (op : Op) (J P : State → Prop) : Prop where
  turn : ∀ {s g ts}, J s → s.turns = g :: ts → J { s with turns := ts }
  eng : ∀ {s}, J s → J (engStep s)
  reset : ∀ {s g ts rest}, J s → s.turns = g :: ts → s.host = .reset :: rest →
    P (resetStep { s with turns := ts, host := rest })
  seq : ∀ {s t}, J s → s.seqOp = some op → s.spc < (progOf op).length →
    seqStep op (progOf op) s = .ok t → (t.seqOp = none → P t) ∧ (t.seqOp ≠ none → J t)
  hang : ∀ {s t}, J s → s.seqOp = some op → s.pend = .none → InVain op s →
    t = { s with rt := statrWord s } → P t

/-- Whatever a run stands in meets `P`. -/
theorem RunInvariant.stands {op : Op} {J P : State → Prop} (h : RunInvariant op J P) {n : Nat} {s t : State}
    (hJ : J s) (hq : s.seqOp = some op) (hlt : s.spc < (progOf op).length) (hn : stepsLeft op s ≤ n)
    (hrun : runTo op (progOf op) n s = .stands t) : P t := by
  induction n generalizing s with
  | zero =>
    unfold stepsLeft at hn
    omega
  | succ n ih =>
    cases hts : s.turns with
    | nil =>
      cases hs : seqStep op (progOf op) s with
      | error f => rw [runTo_calm_fault hts hs] at hrun; cases hrun
      | ok u =>
        obtain ⟨hend, hmore⟩ := h.seq hJ hq hlt hs
        by_cases hqu : u.seqOp = none
        · rw [runTo_calm_ends hts hs hqu] at hrun
          cases hrun
          exact hend hqu
        · rcases seqStep_moves hq hlt hs with hnone | ⟨hqu', hspc, hltu⟩ | ⟨rfl, hv, -⟩
          · exact absurd hnone hqu
          · obtain ⟨-, -, -, -, -, hturns, -⟩ := seqStep_keeps hs
            rw [runTo_calm_more hts hs hqu (by omega)] at hrun
            have hless := stepsLeft_advance hturns hspc hltu
            exact ih (hmore hqu) hqu' hltu (by omega) hrun
          · by_cases hp : s.pend = .none
            · rw [runTo_calm_hangs hts hs hqu rfl hp] at hrun
              cases hrun
              exact h.hang hJ hq hp hv rfl
            · rw [runTo_calm_eng hts hs hqu rfl hp] at hrun
              obtain ⟨-, hqe, hspce, -⟩ := engStep_keeps { s with rt := statrWord s }
              have hless := stepsLeft_eng_lt op (s := { s with rt := statrWord s }) hp
              exact ih (h.eng (hmore hqu)) (hqe.trans hq) (by rw [hspce]; exact hlt)
                (Nat.le_of_lt_succ (hless.trans_le hn)) hrun
    | cons g ts =>
      have hn' : stepsLeft op { s with turns := ts } ≤ n :=
        Nat.le_of_lt_succ ((stepsLeft_turn op hts).trans_le hn)
      have hJ' := h.turn hJ hts
      cases g with
      | host =>
        by_cases hh : s.host.head? = some .reset
        · obtain ⟨rest, hrest⟩ := List.head?_eq_some_iff.mp hh
          rw [runTo_reset_turn hts hrest] at hrun
          cases hrun
          exact h.reset hJ hts hrest
        · rw [runTo_passed_turn hts hh] at hrun
          exact ih hJ' hq hlt hn' hrun
      | eng =>
        rw [runTo_eng_turn hts] at hrun
        obtain ⟨-, hqe, hspce, -⟩ := engStep_keeps { s with turns := ts }
        exact ih (h.eng hJ') (hqe.trans hq) (by rw [hspce]; exact hlt)
          ((stepsLeft_eng_le op _).trans hn') hrun
      | seq =>
        cases hs : seqStep op (progOf op) { s with turns := ts } with
        | error f => rw [runTo_seq_fault hts hs] at hrun; cases hrun
        | ok u =>
          obtain ⟨hend, hmore⟩ := h.seq hJ' hq hlt hs
          by_cases hqu : u.seqOp = none
          · rw [runTo_seq_ends hts hs hqu] at hrun
            cases hrun
            exact hend hqu
          · rw [runTo_seq_more hts hs hqu] at hrun
            rcases seqStep_moves (s := { s with turns := ts }) hq hlt hs with
              hnone | ⟨hqu', hspc, hltu⟩ | ⟨rfl, -⟩
            · exact absurd hnone hqu
            · obtain ⟨-, -, -, -, -, hturns, -⟩ := seqStep_keeps hs
              exact ih (hmore hqu) hqu' hltu ((stepsLeft_advance hturns hspc hltu).le.trans hn') hrun
            · exact ih (hmore hqu) hq hlt hn' hrun

/-- The rule for a whole command. -/
theorem RunInvariant.exec {i : Instr} {J P : State → Prop} (h : RunInvariant i.op J P) {s t : State}
    (hJ : J (s.accept i.op i.a i.d)) (hexec : exec i s = .next t) : P t := by
  rw [exec_eq_outcome] at hexec
  exact h.stands hJ rfl (length_progOf i.op).1 (stepsLeft_le_runBound i.op (s.accept i.op i.a i.d))
    (runEnd_next hexec)

/-! ## The hang (R219) -/

/-- The state is that of a WAIT_DONE that polls for ever. -/
def Hangs (op : Op) (t : State) : Prop :=
  op = .waitDone ∧ t.seqOp = some .waitDone ∧ t.pend = .none ∧ t.eop = false

/-- A poll in vain with nothing pending is WAIT_DONE's: the block is not busy. -/
theorem hangs_of_inVain {op : Op} {s : State} (hi : s.Inv) (hq : s.seqOp = some op) (hp : s.pend = .none)
    (hv : InVain op s) : Hangs op { s with rt := statrWord s } := by
  have hb : s.bsy = false := by
    cases hb : s.bsy with
    | false => rfl
    | true => exact absurd hp (hi.busy_iff_pending.mp hb)
  rw [InVain, bitOf_statrWord_bsy hi.cfg_ok, bitOf_statrWord_eop hi.cfg_ok, hb] at hv
  obtain ⟨hop, he⟩ := hv.resolve_left (by simp)
  exact ⟨hop, hop ▸ hq, hp, he⟩

theorem runInvariant_hangs (op : Op) :
    RunInvariant op State.Inv fun t => t.seqOp ≠ none → Hangs op t where
  turn hi _ := hi.withHost _ _
  eng hi := engStep_inv hi
  reset _ _ _ hne := absurd rfl hne
  seq hi _ _ hs := ⟨fun hnone hne => absurd hnone hne, fun _ => seqStep_inv hi hs⟩
  hang := by
    rintro s t hi hq hp hv rfl -
    exact hangs_of_inVain hi hq hp hv

/-- Settles O10: a poll in vain either lets ENG complete what is pending, or is WAIT_DONE's and stays. -/
theorem onlyWaitDoneHangs : Obligations.OnlyWaitDoneHangs := by
  intro i s t hi hexec hne
  exact (runInvariant_hangs i.op).exec (hi.accept _ _ _) hexec hne

end Sys2Proof.Machine
end

section
/-! PROOFS. The mode bits along a run (spec R37 (f)): an operation command sets one of its own, while the lock is
open, and clears it before it ends. -/

namespace Sys2Proof.Machine

/-! ## The mode bits by name -/

/-- The four mode bits of CTLR (R26). -/
inductive Mode where
  | pg
  | per
  | obpg
  | ober

/-- The position of a mode bit. -/
def Mode.bit : Mode → Config → Nat
  | .pg => Config.pgBit
  | .per => Config.perBit
  | .obpg => Config.obpgBit
  | .ober => Config.oberBit

/-- The value of a mode bit. -/
def State.mode (s : State) : Mode → Bool
  | .pg => s.pg
  | .per => s.per
  | .obpg => s.obpg
  | .ober => s.ober

/-- Every mode bit but one is 0, or all are. -/
def State.NoModeBut (s : State) (m : Option Mode) : Prop := ∀ m', s.mode m' = true → m = some m'

theorem noModeBut_none_iff (s : State) : s.NoModeBut none ↔ s.ModesClear := by
  constructor
  · intro h
    refine ⟨?_, ?_, ?_, ?_⟩ <;> rw [← Bool.not_eq_true] <;> intro hm
    · exact nomatch h .pg hm
    · exact nomatch h .per hm
    · exact nomatch h .obpg hm
    · exact nomatch h .ober hm
  · rintro ⟨h1, h2, h3, h4⟩ m hm
    cases m <;> simp_all [State.mode]

theorem bitOf_ctlrWord_mode {s : State} (h : s.cfg.Ok) (m : Mode) :
    bitOf (ctlrWord s) (m.bit s.cfg) = s.mode m := by
  obtain ⟨h1, h2, h3, h4, -, -⟩ := bitOf_ctlrWord h
  cases m
  · exact h1
  · exact h2
  · exact h3
  · exact h4

theorem mode_bit_lt {c : Config} (h : c.Ok) (m : Mode) : m.bit c < 32 := by
  obtain ⟨h1, h2, h3, h4, -, -⟩ := config_ctlr_lt h
  cases m
  · exact h1
  · exact h2
  · exact h3
  · exact h4

theorem mode_bit_injective {c : Config} (h : c.Ok) {m m' : Mode} (he : m.bit c = m'.bit c) : m = m' := by
  obtain ⟨⟨a1, a2, a3, -, -⟩, ⟨b1, b2, -, -⟩, ⟨c1, -, -⟩, -, -⟩ := config_ctlr_ne h
  cases m <;> cases m' <;> simp_all [Mode.bit]

theorem mode_bit_ne {c : Config} (h : c.Ok) (m : Mode) : m.bit c ≠ c.strtBit ∧ m.bit c ≠ c.lockBit := by
  obtain ⟨⟨-, -, -, a4, a5⟩, ⟨-, -, b3, b4⟩, ⟨-, c2, c3⟩, ⟨d1, d2⟩, -⟩ := config_ctlr_ne h
  cases m
  · exact ⟨a4, a5⟩
  · exact ⟨b3, b4⟩
  · exact ⟨c2, c3⟩
  · exact ⟨d1, d2⟩

/-! ## What the CTLR writes do to the mode bits -/

/-- What a CTLR write that does not lock leaves while unlocked: the mode bits written, the lock open, and, if the
block is then busy, something pending. -/
theorem regWriteCtlr_unlocked {v : Word} {s t : State} (h : regWriteCtlr v s = .ok t)
    (hl : s.lock = false) (hk : bitOf v s.cfg.lockBit = false) :
    (∀ m : Mode, t.mode m = bitOf v (m.bit s.cfg)) ∧ t.lock = false ∧ t.spc = s.spc ∧
      (t.bsy = true → t.pend ≠ .none) := by
  obtain ⟨hb, ⟨hl', -⟩ | ⟨-, hone, u, rfl, -⟩⟩ := regWriteCtlr_cases h
  · simp [hl] at hl'
  · have hu : v &&& ~~~(ctlrDefined s.cfg) = 0#32 := by
      by_contra hne
      rw [regWriteCtlr_illegal hb hl (.inl hne)] at h
      cases h
    rw [regWriteCtlr_legal hb hl hu hone rfl, hk, if_neg (by simp)] at h
    have hmode : ∀ (m : Mode) (w : State), w.pg = bitOf v s.cfg.pgBit → w.per = bitOf v s.cfg.perBit →
        w.obpg = bitOf v s.cfg.obpgBit → w.ober = bitOf v s.cfg.oberBit →
        w.mode m = bitOf v (m.bit s.cfg) := by
      intro m w h1 h2 h3 h4
      cases m
      · exact h1
      · exact h2
      · exact h3
      · exact h4
    split at h
    · rcases startErase_cases h with rfl | ⟨-, -, -, rfl⟩ | ⟨-, -, -, rfl⟩
      · exact ⟨fun m => hmode m _ rfl rfl rfl rfl, hl, rfl, by simp [hb]⟩
      · exact ⟨fun m => hmode m _ rfl rfl rfl rfl, hl, rfl, by simp⟩
      · exact ⟨fun m => hmode m _ rfl rfl rfl rfl, hl, rfl, by simp⟩
    · cases h
      exact ⟨fun m => hmode m _ rfl rfl rfl rfl, hl, rfl, by simp [hb]⟩

/-- The CTLR word of an unlocked block has no lock bit. -/
theorem bitOf_ctlrWord_lockBit {s : State} (h : s.cfg.Ok) : bitOf (ctlrWord s) s.cfg.lockBit = s.lock := by
  obtain ⟨-, -, -, -, -, hk⟩ := bitOf_ctlrWord h
  exact hk

/-- `CtlrSet` of a bit other than the lock bit, unlocked: the mode bits keep their value but for that bit. -/
theorem ctlrSet_unlocked {bit : Config → Nat} {k n : Nat} {s t : State} (hc : s.cfg.Ok)
    (hl : s.lock = false) (hbit : bit s.cfg ≠ s.cfg.lockBit) (h : ctlrSet bit k n s = .ok t) :
    (∀ m : Mode, t.mode m = (s.mode m || decide (m.bit s.cfg = bit s.cfg))) ∧ t.lock = false ∧
      t.spc = s.spc ∧ (t.bsy = true → t.pend ≠ .none) := by
  obtain ⟨hmode, hrest⟩ := regWriteCtlr_unlocked h hl (by
    simp [regReadCtlr, bitOf_ctlrWord_lockBit hc, hl, hbit.symm])
  refine ⟨fun m => ?_, hrest⟩
  rw [hmode, regReadCtlr, bitOf_or, bitOf_ctlrWord_mode hc, bitOf_maskOf]
  simp [mode_bit_lt hc m]

/-- `CtlrClr` of a mode bit, unlocked: that bit is 0 and the others keep their value. -/
theorem ctlrClr_unlocked {m₀ : Mode} {k n : Nat} {s t : State} (hc : s.cfg.Ok) (hl : s.lock = false)
    (h : ctlrClr m₀.bit k n s = .ok t) :
    (∀ m : Mode, t.mode m = true → s.mode m = true ∧ m ≠ m₀) ∧ t.lock = false ∧
      t.spc = s.spc ∧ (t.bsy = true → t.pend ≠ .none) := by
  obtain ⟨hmode, hrest⟩ := regWriteCtlr_unlocked h hl (by
    simp [regReadCtlr, bitOf_ctlrWord_lockBit hc, hl])
  refine ⟨fun m hm => ?_, hrest⟩
  rw [hmode, regReadCtlr, bitOf_and, bitOf_ctlrWord_mode hc, bitOf_not, bitOf_maskOf] at hm
  simp only [mode_bit_lt hc m, decide_true, Bool.true_and, Bool.and_eq_true, Bool.not_eq_true',
    decide_eq_false_iff_not] at hm
  exact ⟨hm.1, fun e => hm.2 (e ▸ rfl)⟩

/-- LOCK keeps the mode bits (R157). -/
theorem ctlrSet_lock_modes {k n : Nat} {s t : State} (hc : s.cfg.Ok) (hone : s.OneMode)
    (h : ctlrSet Config.lockBit k n s = .ok t) : t = { s with lock := true } := by
  rw [ctlrSet_lock hc (regWriteCtlr_cases h).1 hone] at h
  exact (Except.ok.inj h).symm

/-! ## Where a command has its mode bit set -/

/-- The mode bit a command may have set when it stands at a micro-step (R175, R180, R182, R204). -/
def ownMode : Op → Nat → Option Mode
  | .erasePage, k => if 3 ≤ k ∧ k ≤ 6 then some .per else none
  | .program16, k | .program8x2, k => if 3 ≤ k ∧ k ≤ 5 then some .pg else none
  | .programFloat, k => if 3 ≤ k ∧ k ≤ 5 ∨ 10 ≤ k ∧ k ≤ 12 then some .pg else none
  | .writeOb16, k | .writeOb8x2, k =>
    if 8 ≤ k ∧ k ≤ 10 then some .ober else if 12 ≤ k ∧ k ≤ 24 then some .obpg else none
  | _, _ => none

/-- What holds when command `op` stands at micro-step `k`: of the mode bits at most its own is set; past its guard
the lock is open; and where its own may be set, a busy block has something pending. -/
structure ModesAt (op : Op) (k : Nat) (s : State) : Prop where
  own : s.NoModeBut (ownMode op k)
  unlocked : guarded op = true → 0 < k → s.lock = false
  pending : ownMode op k ≠ none → s.bsy = true → s.pend ≠ .none

/-- The micro-step touches no mode bit, closes no lock, and makes the block busy only with something pending;
it goes on, or it polls in vain. -/
def ModeFree (m : MicroStep) : Prop :=
  ∀ k n s t, m k n s = .ok t →
    (t.spc = s.spc ∧ (∀ md, t.mode md = s.mode md) ∧ (s.lock = false → t.lock = false) ∧
      ((s.bsy = true → s.pend ≠ .none) → t.bsy = true → t.pend ≠ .none)) ∨
    t = { s with rt := statrWord s, spc := k }

/-- What the micro-step at index `k` of a command does to the mode bits. -/
inductive ModeStep (op : Op) (k : Nat) (m : MicroStep) : Prop
  | free (hm : ModeFree m) (h0 : k = 0 → guarded op = false) (h : ownMode op (k + 1) = ownMode op k)
  | guards (hm : m = guardLock) (h0 : ownMode op k = none) (h1 : ownMode op (k + 1) = none)
  | sets (md : Mode) (hm : m = ctlrSet md.bit) (hk : guarded op = true ∧ 0 < k)
      (h0 : ownMode op k = none) (h1 : ownMode op (k + 1) = some md)
  | starts (hm : m = ctlrSet Config.strtBit) (hk : guarded op = true ∧ 0 < k)
      (h : ownMode op (k + 1) = ownMode op k)
  | clears (md : Mode) (hm : m = ctlrClr md.bit) (hk : guarded op = true ∧ 0 < k)
      (h0 : ownMode op k = some md) (h1 : ownMode op (k + 1) = none)
  | locks (hm : m = ctlrSet Config.lockBit) (hop : op = .lock)

theorem mode_congr {s t : State} (h1 : t.pg = s.pg) (h2 : t.per = s.per) (h3 : t.obpg = s.obpg)
    (h4 : t.ober = s.ober) (m : Mode) : t.mode m = s.mode m := by
  cases m
  · exact h1
  · exact h2
  · exact h3
  · exact h4

/-! ### The micro-steps that touch no mode bit -/

/-- A micro-step that touches neither the controller's fields nor `SPC`. -/
theorem modeFree_act {f : State → State}
    (h : ∀ s, f s = { s with
      ra := (f s).ra, rd := (f s).rd, rt := (f s).rt, res := (f s).res, rs0 := (f s).rs0
      rs1 := (f s).rs1, rs2 := (f s).rs2, rs3 := (f s).rs3, rb1 := (f s).rb1, rb0 := (f s).rb0
      draws := (f s).draws, eop := (f s).eop, wrprterr := (f s).wrprterr }) : ModeFree (act f) := by
  intro k n s t ht
  cases ht
  rw [h]
  exact .inl ⟨rfl, fun _ => rfl, id, id⟩

theorem modeFree_spinNotBusy : ModeFree spinNotBusy := by
  intro k n s t ht
  cases ht
  cases hb : bitOf (statrWord s) s.cfg.bsyBit
  · refine .inl ⟨?_, fun _ => rfl, id, id⟩
    simp [regReadStatr, hb]
  · exact .inr (by simp [regReadStatr, hb])

theorem modeFree_spinDone : ModeFree spinDone := by
  intro k n s t ht
  cases ht
  cases hv : !(bitOf (statrWord s) s.cfg.bsyBit) && bitOf (statrWord s) s.cfg.eopBit
  · exact .inr (by simp only [regReadStatr, hv]; rfl)
  · refine .inl ⟨?_, fun _ => rfl, id, id⟩
    simp only [regReadStatr, hv, if_true]

theorem modeFree_storeHalf : ModeFree storeHalf := by
  intro k n s t ht
  obtain ⟨-, -, -, ⟨-, rfl⟩ | ⟨-, -, rfl⟩⟩ := memWrite16_cases ht
  · exact .inl ⟨rfl, fun _ => rfl, id, id⟩
  · exact .inl ⟨rfl, mode_congr rfl rfl rfl rfl, id, fun _ _ => by simp⟩

theorem modeFree_writeOb (c : CellId) (v : State → Half) :
    ModeFree (actOrFault fun s => writeOb c (v s) s) := by
  intro k n s t ht
  obtain ⟨-, ⟨-, rfl⟩ | ⟨-, -, -, rfl⟩⟩ := writeOb_cases ht
  · exact .inl ⟨rfl, fun _ => rfl, id, id⟩
  · exact .inl ⟨rfl, mode_congr rfl rfl rfl rfl, id, fun _ _ => by simp⟩

theorem modeFree_addr : ModeFree (actOrFault fun s => regWriteAddr s.ra s) := by
  intro k n s t ht
  rw [(regWriteAddr_ok.mp ht).2]
  exact .inl ⟨rfl, fun m => by cases m <;> rfl, id, id⟩

theorem modeFree_keyr (key : Config → Word) : ModeFree (act fun s => regWriteKeyr (key s.cfg) s) := by
  intro k n s t ht
  cases ht
  rcases regWriteKeyr_cases (key s.cfg) s with e | ⟨-, -, e⟩
  · simp only
    rw [e]
    exact .inl ⟨rfl, fun m => by cases m <;> rfl, id, id⟩
  · simp only
    rw [e]
    exact .inl ⟨rfl, fun m => by cases m <;> rfl, fun _ => rfl, id⟩

theorem modeFree_obkeyr (key : Config → Word) : ModeFree (act fun s => regWriteObkeyr (key s.cfg) s) := by
  intro k n s t ht
  cases ht
  rcases regWriteObkeyr_cases (key s.cfg) s with e | ⟨-, -, e⟩ <;>
  · simp only
    rw [e]
    exact .inl ⟨rfl, fun m => by cases m <;> rfl, id, id⟩

theorem modeFree_readOb (c : CellId) (f : State → Half → State → State)
    (hf : ∀ u v s, f u v s = { s with
      rt := (f u v s).rt, res := (f u v s).res, rs0 := (f u v s).rs0, rs1 := (f u v s).rs1
      rs2 := (f u v s).rs2, rs3 := (f u v s).rs3 }) :
    ModeFree (act fun s => f s (readOb c s).1 (readOb c s).2) := by
  refine modeFree_act fun s => ?_
  rw [hf, eq_with_draws (readOb_state c s)]

theorem modeFree_loadByte : ModeFree loadByte := by
  intro k n s t ht
  simp only [loadByte, actOrFault] at ht
  split at ht <;> cases ht
  rename_i hr
  rw [eq_with_draws (memRead8_cases hr).2]
  exact .inl ⟨rfl, fun m => by cases m <;> rfl, id, id⟩

theorem modeFree_memRead16 (a : State → Word) (f : Half → State → State)
    (hf : ∀ v s, f v s = { s with rt := (f v s).rt, res := (f v s).res }) :
    ModeFree (actOrFault fun s =>
      match memRead16 (a s) s with
      | .error e => .error e
      | .ok (v, s) => .ok (f v s)) := by
  intro k n s t ht
  simp only [actOrFault] at ht
  split at ht <;> cases ht
  rename_i hr
  rw [hf, eq_with_draws (memRead16_cases hr).2.2]
  exact .inl ⟨rfl, fun m => by cases m <;> rfl, id, id⟩

/-! ### One micro-step -/

theorem ModeStep.keeps {op : Op} {k n : Nat} {m : MicroStep} {s t : State} (h : ModeStep op k m)
    (hc : s.cfg.Ok) (hat : ModesAt op k s) (ht : m k n s = .ok t) :
    (t.spc = s.spc ∧ ModesAt op (k + 1) t) ∨ (t.spc = n ∧ t.ModesClear) ∨
      t = { s with rt := statrWord s, spc := k } := by
  cases h with
  | free hm h0 hown =>
    rcases hm k n s t ht with ⟨hspc, hmode, hlock, hpend⟩ | hpoll
    · refine .inl ⟨hspc, fun m' hm' => hown ▸ hat.own m' (hmode m' ▸ hm'), fun hg _ => ?_, fun hne => ?_⟩
      · exact hlock (hat.unlocked hg (Nat.pos_of_ne_zero fun e => by simp [h0 e] at hg))
      · exact hpend (hat.pending (hown ▸ hne))
    · exact .inr (.inr hpoll)
  | guards hm h0 h1 =>
    subst hm
    have hclear : s.ModesClear := (noModeBut_none_iff s).mp (h0 ▸ hat.own)
    cases hl : s.lock with
    | true =>
      rw [guardLock_locked hc hl] at ht
      cases ht
      exact .inr (.inl ⟨rfl, hclear⟩)
    | false =>
      rw [guardLock_unlocked hc hl] at ht
      cases ht
      exact .inl ⟨rfl, by rw [h1]; exact (noModeBut_none_iff _).mpr hclear, fun _ _ => hl,
        fun hne => absurd h1 hne⟩
  | sets md hm hk h0 h1 =>
    subst hm
    obtain ⟨hmode, hlock, hspc, hpend⟩ :=
      ctlrSet_unlocked hc (hat.unlocked hk.1 hk.2) (mode_bit_ne hc md).2 ht
    refine .inl ⟨hspc, fun m' hm' => ?_, fun _ _ => hlock, fun _ => hpend⟩
    rw [hmode, Bool.or_eq_true, decide_eq_true_eq] at hm'
    rcases hm' with hm' | hm'
    · exact nomatch (h0 ▸ hat.own) m' hm'
    · rw [h1, mode_bit_injective hc hm']
  | starts hm hk hown =>
    subst hm
    obtain ⟨-, -, -, -, hne⟩ := config_ctlr_ne hc
    obtain ⟨hmode, hlock, hspc, hpend⟩ := ctlrSet_unlocked hc (hat.unlocked hk.1 hk.2) hne ht
    refine .inl ⟨hspc, fun m' hm' => ?_, fun _ _ => hlock, fun _ => hpend⟩
    rw [hmode, decide_eq_false (mode_bit_ne hc m').1, Bool.or_false] at hm'
    exact hown ▸ hat.own m' hm'
  | clears md hm hk h0 h1 =>
    subst hm
    obtain ⟨hmode, hlock, hspc, hpend⟩ := ctlrClr_unlocked hc (hat.unlocked hk.1 hk.2) ht
    refine .inl ⟨hspc, fun m' hm' => ?_, fun _ _ => hlock, fun _ => hpend⟩
    obtain ⟨hold, hne⟩ := hmode m' hm'
    have hown := hat.own m' hold
    rw [h0] at hown
    exact absurd (Option.some.inj hown).symm hne
  | locks hm hop =>
    subst hm hop
    have hclear : s.ModesClear := (noModeBut_none_iff s).mp hat.own
    obtain ⟨h1, h2, h3, h4⟩ := hclear
    have hone : s.OneMode := by simp [h1, h2, h3, h4, modeCount]
    rw [ctlrSet_lock_modes hc hone ht]
    exact .inl ⟨rfl, (noModeBut_none_iff _).mpr ⟨h1, h2, h3, h4⟩, (nomatch ·), fun hne => absurd rfl hne⟩

/-! ### The commands -/

theorem modeSteps_program16 {op : Op} (h : op = .program16 ∨ op = .program8x2) :
    EachStep (ModeStep op) 0 program16Steps := by
  rcases h with rfl | rfl <;>
  exact ⟨.guards rfl rfl rfl, .free modeFree_spinNotBusy (by simp) rfl,
    .sets .pg rfl (by decide) rfl rfl, .free modeFree_storeHalf (by simp) rfl,
    .free modeFree_spinNotBusy (by simp) rfl, .clears .pg rfl (by decide) rfl rfl, trivial⟩

theorem modeSteps_writeOb {op : Op} (h : op = .writeOb16 ∨ op = .writeOb8x2) :
    EachStep (ModeStep op) 0 writeObSteps := by
  rcases h with rfl | rfl <;>
  exact ⟨.guards rfl rfl rfl, .free modeFree_spinNotBusy (by simp) rfl,
    .free (modeFree_readOb _ (fun _ v s => { s with rs0 := v }) fun _ _ _ => rfl) (by simp) rfl,
    .free (modeFree_readOb _ (fun _ v s => { s with rs1 := v }) fun _ _ _ => rfl) (by simp) rfl,
    .free (modeFree_readOb _ (fun _ v s => { s with rs2 := v }) fun _ _ _ => rfl) (by simp) rfl,
    .free (modeFree_readOb _ (fun _ v s => { s with rs3 := v }) fun _ _ _ => rfl) (by simp) rfl,
    .free (modeFree_act fun _ => rfl) (by simp) rfl,
    .sets .ober rfl (by decide) rfl rfl, .starts rfl (by decide) rfl,
    .free modeFree_spinNotBusy (by simp) rfl, .clears .ober rfl (by decide) rfl rfl,
    .sets .obpg rfl (by decide) rfl rfl,
    .free (modeFree_writeOb _ _) (by simp) rfl, .free modeFree_spinNotBusy (by simp) rfl,
    .free (modeFree_writeOb _ _) (by simp) rfl, .free modeFree_spinNotBusy (by simp) rfl,
    .free (modeFree_writeOb _ _) (by simp) rfl, .free modeFree_spinNotBusy (by simp) rfl,
    .free (modeFree_writeOb _ _) (by simp) rfl, .free modeFree_spinNotBusy (by simp) rfl,
    .free (modeFree_writeOb _ _) (by simp) rfl, .free modeFree_spinNotBusy (by simp) rfl,
    .free (modeFree_writeOb _ _) (by simp) rfl, .free modeFree_spinNotBusy (by simp) rfl,
    .clears .obpg rfl (by decide) rfl rfl, trivial⟩

/-- The mode bits of every operation command, micro-step by micro-step. -/
theorem modeSteps_progOf {op : Op} (h : 0x10 ≤ op.code.toNat) : EachStep (ModeStep op) 0 (progOf op) := by
  cases op with
  | rdStatr | wrStatr | rdCtlr | wrCtlr | wrKeyr | wrObkeyr | wrAddr | ld8 | ld16 | st16 | ldob | stob =>
    exact absurd h (by decide)
  | calcAddr | isBusy | isDone | isWperr | decodeCell | encodeCell | clearDone =>
    exact ⟨.free (modeFree_act fun _ => rfl) (fun _ => rfl) rfl, trivial⟩
  | unlock =>
    exact ⟨.free (modeFree_keyr Config.key1) (fun _ => rfl) rfl,
      .free (modeFree_keyr Config.key2) (fun _ => rfl) rfl, trivial⟩
  | unlockOb =>
    exact ⟨.free (modeFree_obkeyr Config.obKey1) (fun _ => rfl) rfl,
      .free (modeFree_obkeyr Config.obKey2) (fun _ => rfl) rfl, trivial⟩
  | lock => exact ⟨.locks rfl rfl, trivial⟩
  | waitNotBusy => exact ⟨.free modeFree_spinNotBusy (fun _ => rfl) rfl, trivial⟩
  | waitDone =>
    exact ⟨.free modeFree_spinDone (fun _ => rfl) rfl,
      .free (modeFree_act fun _ => rfl) (fun _ => rfl) rfl, trivial⟩
  | erasePage =>
    exact ⟨.guards rfl rfl rfl, .free modeFree_spinNotBusy (by simp) rfl, .sets .per rfl (by decide) rfl rfl,
      .free modeFree_addr (by simp) rfl, .starts rfl (by decide) rfl,
      .free modeFree_spinNotBusy (by simp) rfl, .clears .per rfl (by decide) rfl rfl, trivial⟩
  | program16 => exact modeSteps_program16 (.inl rfl)
  | program8x2 => exact modeSteps_program16 (.inr rfl)
  | programFloat =>
    exact ⟨.guards rfl rfl rfl, .free modeFree_spinNotBusy (by simp) rfl, .sets .pg rfl (by decide) rfl rfl,
      .free modeFree_storeHalf (by simp) rfl, .free modeFree_spinNotBusy (by simp) rfl,
      .clears .pg rfl (by decide) rfl rfl, .free (modeFree_act fun _ => rfl) (by simp) rfl,
      .guards rfl rfl rfl, .free modeFree_spinNotBusy (by simp) rfl, .sets .pg rfl (by decide) rfl rfl,
      .free modeFree_storeHalf (by simp) rfl, .free modeFree_spinNotBusy (by simp) rfl,
      .clears .pg rfl (by decide) rfl rfl, trivial⟩
  | read16 =>
    exact ⟨.free (modeFree_memRead16 _ (fun v s => { s with res := zextHalf v }) fun _ _ => rfl)
      (fun _ => rfl) rfl, trivial⟩
  | read8 => exact ⟨.free modeFree_loadByte (fun _ => rfl) rfl, trivial⟩
  | readFloat =>
    exact ⟨.free (modeFree_memRead16 _ (fun v s => { s with rt := zextHalf v }) fun _ _ => rfl)
        (fun _ => rfl) rfl,
      .free (modeFree_memRead16 _ (fun v s => { s with res := (zextHalf v <<< 16) ||| s.rt })
        fun _ _ => rfl) (fun _ => rfl) rfl, trivial⟩
  | readUser | readRdpr | readWrpr1 | readWrpr0 | readData1 | readData0 =>
    exact ⟨.free (modeFree_readOb _ (fun _ v s => { s with res := zextByte (decodeCell v) })
      fun _ _ _ => rfl) (fun _ => rfl) rfl, trivial⟩
  | readData16 =>
    exact ⟨.free (modeFree_readOb _ (fun _ v s => { s with rt := zextByte (decodeCell v) })
        fun _ _ _ => rfl) (fun _ => rfl) rfl,
      .free (modeFree_readOb _ (fun u v s => { s with res := (u.rt <<< 8) ||| zextByte (decodeCell v) })
        fun _ _ _ => rfl) (fun _ => rfl) rfl, trivial⟩
  | writeOb16 => exact modeSteps_writeOb (.inl rfl)
  | writeOb8x2 => exact modeSteps_writeOb (.inr rfl)

/-- No command has its mode bit set when it starts, or when it ends. -/
theorem ownMode_ends (op : Op) : ownMode op 0 = none ∧ ownMode op (progOf op).length = none := by
  cases op <;> exact ⟨rfl, rfl⟩

/-! ## The run -/

/-- A vain poll in the stretch where the command has its own bit set finds something pending. -/
theorem modesClear_of_hang {op : Op} {s : State} (hc : s.cfg.Ok) (hat : ModesAt op s.spc s)
    (hp : s.pend = .none) (hv : InVain op s) : s.ModesClear := by
  cases hown : ownMode op s.spc with
  | none => exact (noModeBut_none_iff s).mp (hown ▸ hat.own)
  | some md =>
    exfalso
    rcases hv with hb | ⟨rfl, -⟩
    · rw [bitOf_statrWord_bsy hc] at hb
      exact hat.pending (by simp [hown]) hb hp
    · cases hown

/-- The parameters keep their constraints, and the mode bits are as the command's micro-step has them. -/
def OperationRuns (op : Op) (s : State) : Prop := s.cfg.Ok ∧ ModesAt op s.spc s

theorem runInvariant_modes {op : Op} (hcode : 0x10 ≤ op.code.toNat) :
    RunInvariant op (OperationRuns op) State.ModesClear where
  turn := by
    rintro s g ts ⟨hc, hown, hlock, hpend⟩ -
    exact ⟨hc, hown, hlock, hpend⟩
  eng := by
    rintro s ⟨hc, hown, hlock, hpend⟩
    obtain ⟨-, -, hspc, -, -, hcfg, hl⟩ := engStep_keeps s
    have hmode : ∀ m, (engStep s).mode m = s.mode m :=
      mode_congr (by rw [engStep_frame]) (by rw [engStep_frame]) (by rw [engStep_frame])
        (by rw [engStep_frame])
    refine ⟨hcfg ▸ hc, fun m hm => ?_, fun hg hk => ?_, fun hne hb => ?_⟩
    · rw [hspc]
      exact hown m (hmode m ▸ hm)
    · rw [hl]
      exact hlock hg (hspc ▸ hk)
    · by_cases hp : s.pend = .none
      · rw [engStep_none hp] at hb
        exact absurd hp (hpend (hspc ▸ hne) hb)
      · simp [(engStep_idle hp).1] at hb
  reset _ _ _ := ⟨rfl, rfl, rfl, rfl⟩
  seq := by
    rintro s t ⟨hc, hat⟩ hq hlt hs
    obtain ⟨-, -, hcfg, -⟩ := seqStep_keeps hs
    rcases seqStep_cases hs with ⟨hn, -⟩ | ⟨m, u, hm, hu, hend⟩
    · rw [List.getElem?_eq_none_iff] at hn
      omega
    · have hstep := (modeSteps_progOf hcode).get hm
      rw [Nat.zero_add] at hstep
      have hat' : ModesAt op s.spc { s with spc := s.spc + 1 } := ⟨hat.own, hat.unlocked, hat.pending⟩
      rcases hstep.keeps (s := { s with spc := s.spc + 1 }) hc hat' hu with
        ⟨hspc, hnext⟩ | ⟨hspc, hclear⟩ | rfl
      · have hspc' : u.spc = s.spc + 1 := hspc
        rcases hend with ⟨hle, rfl⟩ | ⟨hl, rfl⟩
        · have hlast : s.spc + 1 = (progOf op).length := by omega
          rw [hlast] at hnext
          exact ⟨fun _ => (noModeBut_none_iff u).mp ((ownMode_ends op).2 ▸ hnext.own),
            fun hne => absurd rfl hne⟩
        · refine ⟨fun hnone => ?_, fun _ => ⟨hcfg ▸ hc, hspc' ▸ hnext⟩⟩
          obtain ⟨-, -, -, hop, -⟩ := (hasEffect_of_get hm _ _ _ hu).keeps
          simp [hop, hq] at hnone
      · rcases hend with ⟨hle, rfl⟩ | ⟨hl, rfl⟩
        · exact ⟨fun _ => hclear, fun hne => absurd rfl hne⟩
        · omega
      · rcases hend with ⟨hle, rfl⟩ | ⟨hl, rfl⟩
        · simp only at hle
          omega
        · refine ⟨fun hnone => ?_, fun _ => ⟨hc, hat.own, hat.unlocked, hat.pending⟩⟩
          simp [hq] at hnone
  hang := by
    rintro s t ⟨hc, hat⟩ - hp hv rfl
    exact modesClear_of_hang (s := s) hc hat hp hv

/-- Settles O14: each command's micro-steps set and clear its own mode bit in its own stretch, past the guard,
where the lock is open and a poll in vain finds something pending. -/
theorem operationsClearModeBits : Obligations.OperationsClearModeBits := by
  intro i s t hcode hc hclear hexec
  refine (runInvariant_modes hcode).exec ⟨hc, ?_, ?_, ?_⟩ hexec
  · rw [show (s.accept i.op i.a i.d).spc = 0 from rfl, (ownMode_ends i.op).1]
    exact (noModeBut_none_iff _).mpr hclear
  · intro _ hk
    exact absurd hk (Nat.lt_irrefl 0)
  · intro hne
    exact absurd (ownMode_ends i.op).1 hne

end Sys2Proof.Machine
end

section
/-! PROOFS. From rest the order of the agents does not matter (spec R4, R74, R258): every run of a command, whatever
the order, ends as the run in which ENG steps only where SEQ polls in vain. -/

namespace Sys2Proof.Machine

/-! ## The run with no order left, as a relation -/

/-- How the run of `op` ends from a state when no order of the agents is left: the rules of `runTo` for an empty
order, without the bound on steps. -/
inductive CalmEnds (op : Op) : State → Host.Outcome State Fault Refusal → Prop
  | fault {s : State} {f : Fault} (hs : seqStep op (progOf op) s = .error f) : CalmEnds op s (.fault f)
  | ends {s t : State} (hs : seqStep op (progOf op) s = .ok t) (hq : t.seqOp = none) :
    CalmEnds op s (.next t)
  | more {s t : State} {o : Host.Outcome State Fault Refusal} (hs : seqStep op (progOf op) s = .ok t)
    (hq : t.seqOp ≠ none) (hspc : t.spc ≠ s.spc) (h : CalmEnds op t o) : CalmEnds op s o
  | hangs {s t : State} (hs : seqStep op (progOf op) s = .ok t) (hq : t.seqOp ≠ none)
    (hspc : t.spc = s.spc) (hp : t.pend = .none) : CalmEnds op s (.next t)
  | eng {s t : State} {o : Host.Outcome State Fault Refusal} (hs : seqStep op (progOf op) s = .ok t)
    (hq : t.seqOp ≠ none) (hspc : t.spc = s.spc) (hp : t.pend ≠ .none)
    (h : CalmEnds op (engStep t) o) : CalmEnds op s o

/-- A run from the same micro-step that SEQ takes alike ends alike. -/
theorem CalmEnds.congr {op : Op} {s s' : State} {o : Host.Outcome State Fault Refusal}
    (hs : seqStep op (progOf op) s' = seqStep op (progOf op) s) (hspc : s'.spc = s.spc)
    (h : CalmEnds op s o) : CalmEnds op s' o := by
  cases h with
  | fault h => exact .fault (hs.trans h)
  | ends h hq => exact .ends (hs.trans h) hq
  | more h hq hne hrest => exact .more (hs.trans h) hq (hspc ▸ hne) hrest
  | hangs h hq he hp => exact .hangs (hs.trans h) hq (he.trans hspc.symm) hp
  | eng h hq he hp hrest => exact .eng (hs.trans h) hq (he.trans hspc.symm) hp hrest

/-- The run with no order left ends in one way. -/
theorem CalmEnds.unique {op : Op} {s : State} {o o' : Host.Outcome State Fault Refusal}
    (h : CalmEnds op s o) (h' : CalmEnds op s o') : o = o' := by
  induction h with
  | fault hs => cases h' <;> simp_all
  | ends hs hq => cases h' <;> simp_all
  | more hs hq hspc _ ih =>
    cases h' with
    | fault hs' => simp_all
    | ends hs' hq' => simp_all
    | more hs' _ _ hrest => exact ih (Except.ok.inj (hs.symm.trans hs') ▸ hrest)
    | hangs hs' _ he => exact absurd (Except.ok.inj (hs.symm.trans hs') ▸ he) hspc
    | eng hs' _ he => exact absurd (Except.ok.inj (hs.symm.trans hs') ▸ he) hspc
  | hangs hs hq hspc hp =>
    cases h' with
    | fault hs' => simp_all
    | ends hs' hq' => simp_all
    | more hs' _ hne => exact absurd (Except.ok.inj (hs'.symm.trans hs) ▸ hspc) hne
    | hangs hs' => rw [Except.ok.inj (hs.symm.trans hs')]
    | eng hs' _ _ hp' => exact absurd (Except.ok.inj (hs.symm.trans hs') ▸ hp) hp'
  | eng hs hq hspc hp _ ih =>
    cases h' with
    | fault hs' => simp_all
    | ends hs' hq' => simp_all
    | more hs' _ hne => exact absurd (Except.ok.inj (hs'.symm.trans hs) ▸ hspc) hne
    | hangs hs' _ _ hp' => exact absurd (Except.ok.inj (hs'.symm.trans hs) ▸ hp') hp
    | eng hs' _ _ _ hrest => exact ih (Except.ok.inj (hs.symm.trans hs') ▸ hrest)

/-! ## Where an operation is pending, SEQ waits -/

/-- The micro-step leaves a block at rest at rest. -/
def Quiet (m : MicroStep) : Prop :=
  ∀ k n s t, s.cfg.Ok → State.Rested s → m k n s = .ok t → t.Rested

/-- A micro-step after which something may be pending is the last, or SEQ waits next. -/
def Paced (op : Op) (k : Nat) (m : MicroStep) : Prop :=
  Quiet m ∨ (progOf op)[k + 1]? = none ∨ (progOf op)[k + 1]? = some spinNotBusy

theorem quiet_act {f : State → State}
    (h : ∀ s, (f s).bsy = s.bsy ∧ (f s).pend = s.pend ∧ (f s).strt = s.strt) : Quiet (act f) := by
  rintro k n s t - ⟨hb, hp, hs⟩ ht
  cases ht
  obtain ⟨h1, h2, h3⟩ := h s
  exact ⟨h1.trans hb, h2.trans hp, h3.trans hs⟩

theorem quiet_spinNotBusy : Quiet spinNotBusy := by
  rintro k n s t - hr ht
  cases ht
  exact hr

theorem quiet_spinDone : Quiet spinDone := by
  rintro k n s t - hr ht
  cases ht
  exact hr

theorem quiet_addr : Quiet (actOrFault fun s => regWriteAddr s.ra s) := by
  rintro k n s t - hr ht
  rw [(regWriteAddr_ok.mp ht).2]
  exact hr

theorem quiet_keyr (key : Config → Word) : Quiet (act fun s => regWriteKeyr (key s.cfg) s) := by
  refine quiet_act fun s => ?_
  rcases regWriteKeyr_cases (key s.cfg) s with e | ⟨-, -, e⟩ <;> rw [e] <;> simp

theorem quiet_obkeyr (key : Config → Word) : Quiet (act fun s => regWriteObkeyr (key s.cfg) s) := by
  refine quiet_act fun s => ?_
  rcases regWriteObkeyr_cases (key s.cfg) s with e | ⟨-, -, e⟩ <;> rw [e] <;> simp

theorem quiet_readOb (c : CellId) (f : State → Half → State → State)
    (hf : ∀ u v s, f u v s = { s with
      rt := (f u v s).rt, res := (f u v s).res, rs0 := (f u v s).rs0, rs1 := (f u v s).rs1
      rs2 := (f u v s).rs2, rs3 := (f u v s).rs3 }) :
    Quiet (act fun s => f s (readOb c s).1 (readOb c s).2) := by
  refine quiet_act fun s => ?_
  rw [hf, eq_with_draws (readOb_state c s)]
  simp

theorem quiet_memRead16 (a : State → Word) (f : Half → State → State)
    (hf : ∀ v s, f v s = { s with rt := (f v s).rt, res := (f v s).res }) :
    Quiet (actOrFault fun s =>
      match memRead16 (a s) s with
      | .error e => .error e
      | .ok (v, s) => .ok (f v s)) := by
  rintro k n s t - hr ht
  simp only [actOrFault] at ht
  split at ht <;> cases ht
  rename_i hread
  rw [hf, eq_with_draws (memRead16_cases hread).2.2]
  exact hr

/-- A CTLR write without the start bit starts nothing (R123). -/
theorem regWriteCtlr_no_start {v : Word} {s t : State} (h : regWriteCtlr v s = .ok t)
    (hv : bitOf v s.cfg.strtBit = false) : t.bsy = s.bsy ∧ t.pend = s.pend ∧ t.strt = s.strt := by
  obtain ⟨hb, ⟨-, rfl⟩ | ⟨hl, hone, u, rfl, -⟩⟩ := regWriteCtlr_cases h
  · simp
  · have hu : v &&& ~~~(ctlrDefined s.cfg) = 0#32 := by
      by_contra hne
      rw [regWriteCtlr_illegal hb hl (.inl hne)] at h
      cases h
    rw [regWriteCtlr_legal hb hl hu hone rfl, hv] at h
    split at h <;> cases h <;> simp

/-- Setting a mode bit starts nothing where the start bit is 0. -/
theorem quiet_ctlrSet (md : Mode) : Quiet (ctlrSet md.bit) := by
  rintro k n s t hc ⟨hb, hp, hs⟩ ht
  obtain ⟨-, -, -, -, hstrt, -⟩ := bitOf_ctlrWord hc
  obtain ⟨h1, h2, h3⟩ := regWriteCtlr_no_start ht (by
    simp [regReadCtlr, hstrt, hs, (mode_bit_ne hc md).1.symm])
  exact ⟨h1.trans hb, h2.trans hp, h3.trans hs⟩

/-- Clearing a bit starts nothing where the start bit is 0. -/
theorem quiet_ctlrClr (bit : Config → Nat) : Quiet (ctlrClr bit) := by
  rintro k n s t hc ⟨hb, hp, hs⟩ ht
  obtain ⟨-, -, -, -, hstrt, -⟩ := bitOf_ctlrWord hc
  obtain ⟨h1, h2, h3⟩ := regWriteCtlr_no_start ht (by simp [regReadCtlr, hstrt, hs])
  exact ⟨h1.trans hb, h2.trans hp, h3.trans hs⟩

/-- Every command waits where it has started an operation and goes on. -/
theorem paced_progOf (op : Op) : EachStep (Paced op) 0 (progOf op) := by
  cases op with
  | rdStatr | wrStatr | rdCtlr | wrCtlr | wrKeyr | wrObkeyr | wrAddr | ld8 | ld16 | st16 | ldob | stob
  | calcAddr | lock | isBusy | isDone | isWperr | clearDone | waitNotBusy | read16 | read8 | decodeCell
  | encodeCell | readUser | readRdpr | readWrpr1 | readWrpr0 | readData1 | readData0 =>
    exact ⟨.inr (.inl rfl), trivial⟩
  | unlock => exact ⟨.inl (quiet_keyr Config.key1), .inr (.inl rfl), trivial⟩
  | unlockOb => exact ⟨.inl (quiet_obkeyr Config.obKey1), .inr (.inl rfl), trivial⟩
  | waitDone => exact ⟨.inl quiet_spinDone, .inr (.inl rfl), trivial⟩
  | erasePage =>
    exact ⟨.inr (.inr rfl), .inl quiet_spinNotBusy, .inl (quiet_ctlrSet .per), .inl quiet_addr,
      .inr (.inr rfl), .inl quiet_spinNotBusy, .inr (.inl rfl), trivial⟩
  | program16 | program8x2 =>
    exact ⟨.inr (.inr rfl), .inl quiet_spinNotBusy, .inl (quiet_ctlrSet .pg), .inr (.inr rfl),
      .inl quiet_spinNotBusy, .inr (.inl rfl), trivial⟩
  | programFloat =>
    exact ⟨.inr (.inr rfl), .inl quiet_spinNotBusy, .inl (quiet_ctlrSet .pg), .inr (.inr rfl),
      .inl quiet_spinNotBusy, .inl (quiet_ctlrClr _), .inl (quiet_act fun _ => ⟨rfl, rfl, rfl⟩),
      .inr (.inr rfl), .inl quiet_spinNotBusy, .inl (quiet_ctlrSet .pg), .inr (.inr rfl),
      .inl quiet_spinNotBusy, .inr (.inl rfl), trivial⟩
  | readFloat =>
    exact ⟨.inl (quiet_memRead16 _ (fun v s => { s with rt := zextHalf v }) fun _ _ => rfl),
      .inr (.inl rfl), trivial⟩
  | readData16 =>
    exact ⟨.inl (quiet_readOb _ (fun _ v s => { s with rt := zextByte (decodeCell v) }) fun _ _ _ => rfl),
      .inr (.inl rfl), trivial⟩
  | writeOb16 | writeOb8x2 =>
    exact ⟨.inr (.inr rfl), .inl quiet_spinNotBusy,
      .inl (quiet_readOb _ (fun _ v s => { s with rs0 := v }) fun _ _ _ => rfl),
      .inl (quiet_readOb _ (fun _ v s => { s with rs1 := v }) fun _ _ _ => rfl),
      .inl (quiet_readOb _ (fun _ v s => { s with rs2 := v }) fun _ _ _ => rfl),
      .inl (quiet_readOb _ (fun _ v s => { s with rs3 := v }) fun _ _ _ => rfl),
      .inl (quiet_act fun _ => ⟨rfl, rfl, rfl⟩), .inl (quiet_ctlrSet .ober), .inr (.inr rfl),
      .inl quiet_spinNotBusy, .inl (quiet_ctlrClr _), .inl (quiet_ctlrSet .obpg), .inr (.inr rfl),
      .inl quiet_spinNotBusy, .inr (.inr rfl), .inl quiet_spinNotBusy, .inr (.inr rfl),
      .inl quiet_spinNotBusy, .inr (.inr rfl), .inl quiet_spinNotBusy, .inr (.inr rfl),
      .inl quiet_spinNotBusy, .inr (.inr rfl), .inl quiet_spinNotBusy, .inr (.inl rfl), trivial⟩

/-- From rest a micro-step leaves the block at rest, or busy with something pending. -/
theorem Effect.starts {op : Op} {m : MicroStep} {k n : Nat} {s t : State} (h : Effect op m k n s t)
    (hr : s.Rested) : t.Rested ∨ t.bsy = true ∧ t.pend ≠ .none := by
  obtain ⟨hb, hp, hs⟩ := hr
  cases h with
  | registers h => rw [h]; exact .inl ⟨hb, hp, hs⟩
  | leaves h => rw [h]; exact .inl ⟨hb, hp, hs⟩
  | polls hm hv h => rw [h]; exact .inl ⟨hb, hp, hs⟩
  | statr v h => rw [h]; exact .inl ⟨hb, hp, hs⟩
  | keyr v h hv => rcases regWriteKeyr_cases v s with e | ⟨-, -, e⟩ <;> rw [h, e] <;> exact .inl ⟨hb, hp, hs⟩
  | obkeyr v h hv =>
    rcases regWriteObkeyr_cases v s with e | ⟨-, -, e⟩ <;> rw [h, e] <;> exact .inl ⟨hb, hp, hs⟩
  | ctlr v h =>
    obtain ⟨-, ⟨-, rfl⟩ | ⟨-, -, u, rfl, rfl | rfl | hstart⟩⟩ := regWriteCtlr_cases h
    · exact .inl ⟨hb, hp, hs⟩
    · exact .inl ⟨hb, hp, hs⟩
    · exact .inl ⟨hb, hp, hs⟩
    · rcases startErase_cases hstart with rfl | ⟨-, -, -, rfl⟩ | ⟨-, -, -, rfl⟩
      · exact .inl ⟨hb, hp, hs⟩
      · exact .inr ⟨rfl, by simp⟩
      · exact .inr ⟨rfl, by simp⟩
  | addr v h => rw [(regWriteAddr_ok.mp h).2]; exact .inl ⟨hb, hp, hs⟩
  | store a v h =>
    obtain ⟨-, -, -, ⟨-, rfl⟩ | ⟨-, -, rfl⟩⟩ := memWrite16_cases h
    · exact .inl ⟨hb, hp, hs⟩
    · exact .inr ⟨rfl, by simp⟩
  | obStore c v h =>
    obtain ⟨-, ⟨-, rfl⟩ | ⟨-, -, -, rfl⟩⟩ := writeOb_cases h
    · exact .inl ⟨hb, hp, hs⟩
    · exact .inr ⟨rfl, by simp⟩

/-! ## What holds along a run that started from rest -/

/-- A run of `op` that started from rest, in which RESET is not due: something is pending only where SEQ waits for
it. -/
structure Waits (op : Op) (s : State) : Prop where
  cfg_ok : s.cfg.Ok
  no_reset : s.ResetNotDue
  running : s.seqOp = some op
  inside : s.spc < (progOf op).length
  rests : s.pend = .none → s.Rested
  waits : s.pend ≠ .none → s.bsy = true ∧ (progOf op)[s.spc]? = some spinNotBusy

/-- At a wait, with the block busy, SEQ polls in vain. -/
theorem seqStep_spin_busy {op : Op} {s : State} (hc : s.cfg.Ok) (hb : s.bsy = true)
    (hm : (progOf op)[s.spc]? = some spinNotBusy) :
    seqStep op (progOf op) s = .ok { s with rt := statrWord s } := by
  obtain ⟨hlt, -⟩ := List.getElem?_eq_some_iff.mp hm
  have hspin := spinNotBusy_busy (s := { s with spc := s.spc + 1 }) hc hb s.spc (progOf op).length
  exact seqStep_more hm hspin hlt

/-- A poll overwrites RT, and so does not see what it held. -/
theorem seqStep_poll_rt {op : Op} {s : State} (z : Word)
    (hm : (progOf op)[s.spc]? = some spinNotBusy ∨ (progOf op)[s.spc]? = some spinDone) :
    seqStep op (progOf op) { s with rt := z } = seqStep op (progOf op) s := by
  rcases hm with hm | hm <;> simp only [seqStep, hm] <;> rfl

theorem Waits.eng {op : Op} {s : State} (h : Waits op s) : Waits op (engStep s) := by
  obtain ⟨-, hq, hspc, hturns, hhost, hcfg, -⟩ := engStep_keeps s
  refine ⟨hcfg ▸ h.cfg_ok, ?_, hq.trans h.running, hspc ▸ h.inside, fun _ => ?_, fun hne => ?_⟩
  · rw [State.ResetNotDue, hturns, hhost]
    exact h.no_reset
  · by_cases hp : s.pend = .none
    · rw [engStep_none hp]
      exact h.rests hp
    · exact ⟨(engStep_idle hp).1, engStep_pend s, (engStep_idle hp).2⟩
  · exact absurd (engStep_pend s) hne

theorem Waits.turn {op : Op} {s : State} {g : Agent} {ts : List Agent} (h : Waits op s)
    (hts : s.turns = g :: ts) : Waits op { s with turns := ts } := by
  refine ⟨h.cfg_ok, ?_, h.running, h.inside, h.rests, h.waits⟩
  rcases h.no_reset with hno | hno
  · exact .inl fun hmem => hno (hts ▸ List.mem_cons_of_mem g hmem)
  · exact .inr hno

/-- SEQ's step, if it goes on, waits where it has started something. -/
theorem Waits.seq {op : Op} {s t : State} (h : Waits op s) (hs : seqStep op (progOf op) s = .ok t)
    (hne : t.seqOp ≠ none) : Waits op t := by
  obtain ⟨-, -, hcfg, -, hhost, hturns, -⟩ := seqStep_keeps hs
  rcases seqStep_moves h.running h.inside hs with hnone | ⟨hq, hspc, hlt⟩ | ⟨rfl, -⟩
  · exact absurd hnone hne
  · have hp : s.pend = .none := by
      by_contra hp
      obtain ⟨hb, hm⟩ := h.waits hp
      rw [seqStep_spin_busy h.cfg_ok hb hm] at hs
      cases hs
      simp at hspc
    obtain ⟨m, u, hm, hu, hend⟩ := (seqStep_cases hs).resolve_left
      (fun hn => by have := List.getElem?_eq_none_iff.mp hn.1; have := h.inside; omega)
    obtain ⟨-, rfl⟩ := hend.resolve_left (fun he => hne (by rw [he.2]; rfl))
    have hr : State.Rested { s with spc := s.spc + 1 } := h.rests hp
    have hpace := (paced_progOf op).get hm
    rw [Nat.zero_add] at hpace
    have hkind : t.Rested ∨ (t.bsy = true ∧ t.pend ≠ .none) ∧
        (progOf op)[t.spc]? = some spinNotBusy := by
      rcases hpace with hquiet | hnext
      · exact .inl (hquiet _ _ { s with spc := s.spc + 1 } _ h.cfg_ok hr hu)
      · refine ((hasEffect_of_get hm _ _ _ hu).starts hr).imp_right fun hst => ⟨hst, ?_⟩
        rw [hspc]
        refine hnext.resolve_left fun hn => ?_
        have := List.getElem?_eq_none_iff.mp hn
        omega
    refine ⟨hcfg ▸ h.cfg_ok, ?_, hq, hlt, fun hpt => ?_, fun hpt => ?_⟩
    · rw [State.ResetNotDue, hturns, hhost]
      exact h.no_reset
    · exact hkind.resolve_right fun hst => hst.1.2 hpt
    · rcases hkind with hrest | ⟨⟨hb, -⟩, hm'⟩
      · exact absurd hrest.2.1 hpt
      · exact ⟨hb, hm'⟩
  · exact ⟨h.cfg_ok, h.no_reset, h.running, h.inside, h.rests, h.waits⟩

/-! ## Every order ends alike -/

/-- The end of a run, but for what is left of the order. -/
def calmOutcome : RunEnd → Host.Outcome State Fault Refusal
  | .stands t => .next t.calmed
  | .faulted f _ => .fault f

/-- ENG's step before a wait is ENG's step at the wait. -/
theorem CalmEnds.of_eng {op : Op} {s : State} {o : Host.Outcome State Fault Refusal} (hw : Waits op s)
    (h : CalmEnds op (engStep s).calmed o) : CalmEnds op s.calmed o := by
  by_cases hp : s.pend = .none
  · rwa [engStep_none hp] at h
  · obtain ⟨hb, hm⟩ := hw.waits hp
    refine .eng (seqStep_spin_busy (s := s.calmed) hw.cfg_ok hb hm) (by simp [hw.running]) rfl hp ?_
    obtain ⟨-, -, hspc, -⟩ := engStep_keeps s
    rw [engStep_rt s.calmed, engStep_turns s]
    exact h.congr (seqStep_poll_rt (s := (engStep s).calmed) _ (.inl (hspc ▸ hm))) rfl

/-- SEQ's turn is SEQ's step with no order left; a poll in vain may be repeated. -/
theorem CalmEnds.of_seq {op : Op} {s t : State} {o : Host.Outcome State Fault Refusal} (hw : Waits op s)
    (hs : seqStep op (progOf op) s = .ok t) (hne : t.seqOp ≠ none) (h : CalmEnds op t.calmed o) :
    CalmEnds op s.calmed o := by
  have hs' : seqStep op (progOf op) s.calmed = .ok t.calmed := by rw [seqStep_turns, hs]; rfl
  rcases seqStep_moves hw.running hw.inside hs with hnone | ⟨-, hspc, -⟩ | ⟨rfl, -, hm⟩
  · exact absurd hnone hne
  · exact .more hs' hne (by rw [hspc]; simp) h
  · exact CalmEnds.congr (s := ({ s with rt := statrWord s } : State).calmed) (s' := s.calmed)
      (seqStep_poll_rt (s := s.calmed) (statrWord s) hm).symm rfl h

/-- Whatever the order, a run from rest ends as the run with no order left. -/
theorem runTo_calmEnds {op : Op} {n : Nat} {s : State} (hw : Waits op s) (hn : stepsLeft op s ≤ n) :
    CalmEnds op s.calmed (calmOutcome (runTo op (progOf op) n s)) := by
  induction n generalizing s with
  | zero =>
    have hin := hw.inside
    unfold stepsLeft at hn
    omega
  | succ n ih =>
    cases hts : s.turns with
    | nil =>
      have hcalm : s.calmed = s := by rw [State.calmed, ← hts]
      rw [hcalm]
      cases hs : seqStep op (progOf op) s with
      | error f => rw [runTo_calm_fault hts hs]; exact .fault hs
      | ok t =>
        obtain ⟨-, -, -, -, -, hturns, -⟩ := seqStep_keeps hs
        have hcalm' : t.calmed = t := by rw [State.calmed, ← hts, ← hturns]
        by_cases hq : t.seqOp = none
        · rw [runTo_calm_ends hts hs hq, calmOutcome, hcalm']
          exact .ends hs hq
        · rcases seqStep_moves hw.running hw.inside hs with hnone | ⟨-, hspc, hlt⟩ | ⟨rfl, -⟩
          · exact absurd hnone hq
          · have hless := stepsLeft_advance hturns hspc hlt
            have hrest := ih (hw.seq hs hq) (by omega)
            rw [hcalm'] at hrest
            rw [runTo_calm_more hts hs hq (by omega)]
            exact .more hs hq (by omega) hrest
          · by_cases hp : s.pend = .none
            · rw [runTo_calm_hangs hts hs hq rfl hp, calmOutcome, hcalm']
              exact .hangs hs hq rfl hp
            · have hless := stepsLeft_eng_lt op (s := { s with rt := statrWord s }) hp
              have hrest := ih (hw.seq hs hq).eng (Nat.le_of_lt_succ (hless.trans_le hn))
              obtain ⟨-, -, -, hturns', -⟩ := engStep_keeps { s with rt := statrWord s }
              have hcalm'' : (engStep { s with rt := statrWord s }).calmed =
                  engStep { s with rt := statrWord s } := by
                rw [State.calmed, ← hturns'.trans hts]
              rw [hcalm''] at hrest
              rw [runTo_calm_eng hts hs hq rfl hp]
              exact .eng hs hq rfl hp hrest
    | cons g ts =>
      have hw' := hw.turn hts
      have hn' : stepsLeft op { s with turns := ts } ≤ n :=
        Nat.le_of_lt_succ ((stepsLeft_turn op hts).trans_le hn)
      cases g with
      | host =>
        have hh : s.host.head? ≠ some .reset := hw.no_reset.resolve_left (by simp [hts])
        rw [runTo_passed_turn hts hh]
        exact ih hw' hn'
      | eng =>
        rw [runTo_eng_turn hts]
        exact .of_eng (s := { s with turns := ts }) hw' (ih hw'.eng ((stepsLeft_eng_le op _).trans hn'))
      | seq =>
        cases hs : seqStep op (progOf op) { s with turns := ts } with
        | error f =>
          rw [runTo_seq_fault hts hs]
          exact .fault (by rw [seqStep_turns op { s with turns := ts } [], hs]; rfl)
        | ok t =>
          by_cases hq : t.seqOp = none
          · rw [runTo_seq_ends hts hs hq]
            exact .ends (t := t.calmed) (by rw [seqStep_turns op { s with turns := ts } [], hs]; rfl) hq
          · rw [runTo_seq_more hts hs hq]
            refine .of_seq (s := { s with turns := ts }) hw' hs hq (ih (hw'.seq hs hq) ?_)
            rcases seqStep_moves hw'.running hw'.inside hs with hnone | ⟨-, hspc, hlt⟩ | ⟨rfl, -⟩
            · exact absurd hnone hq
            · obtain ⟨-, -, -, -, -, hturns, -⟩ := seqStep_keeps hs
              exact (stepsLeft_advance hturns hspc hlt).le.trans hn'
            · exact hn'

theorem sameUpToTurns_of_calmOutcome {e e' : RunEnd} (h : calmOutcome e = calmOutcome e') :
    sameUpToTurns e.outcome e'.outcome := by
  cases e with
  | stands t =>
    cases e' with
    | stands u => exact Host.Outcome.next.inj h
    | faulted => nomatch h
  | faulted f t =>
    cases e' with
    | stands => nomatch h
    | faulted => exact Host.Outcome.fault.inj h

/-- From rest a command waits, where it does, for what it has started. -/
theorem waits_accept {i : Instr} {s : State} (hc : s.cfg.Ok) (hr : s.Rested) (hno : s.ResetNotDue) :
    Waits i.op (s.accept i.op i.a i.d) where
  cfg_ok := hc
  no_reset := hno
  running := rfl
  inside := (length_progOf i.op).1
  rests _ := hr
  waits hne := absurd hr.2.1 hne

/-- Settles O9: under any order, and under none, the command ends as the run with no order left. -/
theorem orderDoesNotMatterFromRest : Obligations.OrderDoesNotMatterFromRest := by
  intro i s hc hr hno
  rw [exec_eq_outcome, exec_eq_outcome]
  apply sameUpToTurns_of_calmOutcome
  have hany := runTo_calmEnds (waits_accept (i := i) hc hr hno) (stepsLeft_le_runBound _ _)
  have hnone := runTo_calmEnds (waits_accept (i := i) (s := s.calmed) hc hr (.inl (by simp)))
    (stepsLeft_le_runBound _ _)
  exact hany.unique hnone

end Sys2Proof.Machine
end

section
/-! PROOFS. The commands of one micro-step (spec R120 to R131, R150, R157, R165 to R169, R190, R191, R195 to R202),
with SEQ next to move. -/

namespace Sys2Proof.Machine

/-! ## Running one micro-step -/

/-- The state the first micro-step of a command is taken in, with SEQ next to move. -/
abbrev State.begun (s : State) (i : Instr) : State :=
  { s.accept i.op i.a i.d with turns := s.turns.tail, spc := 1 }

section
variable {i : Instr} {s : State}

/-- A command of one micro-step that may fault, where it does not. -/
theorem exec_one {f : State → Except Fault State} {t : State} (hp : progOf i.op = [actOrFault f])
    (hs : s.SeqFirst) (h : f (s.begun i) = .ok t) (ht : t.spc = 1) :
    exec i s = .next (t.finish i.op) := by
  rw [exec_eq, hp]
  exact runCommand_one hs h ht.ge

/-- A command of one micro-step that may fault, where it does. -/
theorem exec_one_fault {f : State → Except Fault State} {e : Fault} (hp : progOf i.op = [actOrFault f])
    (hs : s.SeqFirst) (h : f (s.begun i) = .error e) : exec i s = .fault e := by
  rw [exec_eq, hp]
  exact runCommand_one_fault hs h

/-- A command of one micro-step that cannot fault. -/
theorem exec_act {f : State → State} (hp : progOf i.op = [act f]) (hs : s.SeqFirst)
    (ht : (f (s.begun i)).spc = 1) : exec i s = .next ((f (s.begun i)).finish i.op) := by
  rw [exec_eq, hp]
  exact runCommand_one hs rfl ht.ge

end

/-! ## Register reads and the flags (R120 to R122, R165 to R168) -/

theorem fieldAt_eq_shift (bit : Nat) (b : Bool) : fieldAt bit b = zextBit b <<< bit := by
  cases b
  · exact (BitVec.zero_shiftLeft bit).symm
  · rfl

/-- Settles O20: a field's mask where the field is 1 is the field shifted to its position. -/
theorem registerReadsReturnFields : Obligations.RegisterReadsReturnFields := by
  intro a d s hs st ct
  have hst : statrWord s = st := by simp only [statrWord, fieldAt_eq_shift, st]
  have hct : ctlrWord s = ct := by simp only [ctlrWord, fieldAt_eq_shift, ct]
  rw [← hst, ← hct]
  exact ⟨exec_act (i := .rdStatr a d) rfl hs rfl, exec_act (i := .rdCtlr a d) rfl hs rfl⟩

theorem and_not_eq_ite (b c : Bool) : (b && !c) = if c then false else b := by
  cases c <;> simp

/-- Settles O21. -/
theorem wrStatrClearsWrittenOnes : Obligations.WrStatrClearsWrittenOnes := by
  intro a d s hs
  rw [← and_not_eq_ite, ← and_not_eq_ite]
  exact exec_act (i := .wrStatr a d) rfl hs rfl

/-- Settles O41: each flag stands in the STATR word at its own bit. -/
theorem flagReadsReturnFlag : Obligations.FlagReadsReturnFlag := by
  intro a d s hc hs e
  refine ⟨?_, ?_, ?_⟩
  · rw [← bitOf_statrWord_bsy hc]
    exact exec_act (i := .isBusy a d) rfl hs rfl
  · rw [← bitOf_statrWord_eop hc]
    exact exec_act (i := .isDone a d) rfl hs rfl
  · rw [← bitOf_statrWord_wrprterr hc]
    exact exec_act (i := .isWperr a d) rfl hs rfl

/-- The mask of the done flag written to STATR clears that flag alone. -/
theorem regWriteStatr_eop {s : State} (hc : s.cfg.Ok) :
    regWriteStatr (maskOf s.cfg.eopBit) s = { s with eop := false } := by
  obtain ⟨⟨-, -, hne⟩, -, hlt, -⟩ := config_statr hc
  simp [regWriteStatr, hlt, hne.symm]

/-- Settles O42. -/
theorem clearDoneClearsDoneFlag : Obligations.ClearDoneClearsDoneFlag := by
  intro a d s hc hs
  have hclear : clearDone 0 1 (s.begun (.clearDone a d)) =
      .ok { s.begun (.clearDone a d) with eop := false } :=
    congrArg Except.ok (regWriteStatr_eop hc)
  exact exec_one rfl hs hclear rfl

/-- Settles O36: the two sums agree modulo 2^32. -/
theorem calcAddrAddsRegionStart : Obligations.CalcAddrAddsRegionStart := by
  intro n d s hs v
  have hv : calculateAddress s.cfg n = v := by
    simp only [calculateAddress, v]
    apply BitVec.eq_of_toNat_eq
    simp [BitVec.toNat_add]
  rw [← hv]
  exact exec_act (i := .calcAddr n d) rfl hs rfl

theorem lowByte_lowHalf (d : Word) : lowByte (lowHalf d) = d.extractLsb' 0 8 := by
  ext j hj
  simp [lowByte, lowHalf]

theorem highByte_lowHalf (d : Word) : highByte (lowHalf d) = d.extractLsb' 8 8 := by
  ext j hj
  simp [highByte, lowHalf]

/-- Settles O54: the two functions of R99 written out. -/
theorem cellCommandsFollowCode : Obligations.CellCommandsFollowCode := by
  intro a d s hs b check dec enc
  have hdec : zextByte (decodeCell (lowHalf d)) = dec := by
    rw [decodeCell, lowByte_lowHalf, highByte_lowHalf]
    exact apply_ite zextByte (check = b) b 0#8
  rw [← hdec]
  exact ⟨exec_act (i := .decodeCell a d) rfl hs rfl, exec_act (i := .encodeCell a d) rfl hs rfl⟩

/-! ## CTLR and ADDR writes (R123, R126, R157) -/

section
variable {s : State}

theorem startErase_outside (hp : s.per = true) (hi : inMain s.cfg s.addr = false) :
    startErase s = .error .outOfRange := by
  simp [startErase, hp, hi]

theorem startErase_misaligned (hp : s.per = true) (hi : inMain s.cfg s.addr = true)
    (ha : s.addr.toNat % pageSize ≠ 0) : startErase s = .error .misaligned := by
  simp [startErase, hp, hi, ha]

theorem startErase_page (hp : s.per = true) (hi : inMain s.cfg s.addr = true)
    (ha : s.addr.toNat % pageSize = 0) :
    startErase s = .ok { s with pend := .erase (pageOf s.cfg s.addr), bsy := true, strt := true } := by
  simp [startErase, hp, hi, ha]

theorem startErase_block (hp : s.per = false) (ho : s.ober = true) (hl : s.obl = false) :
    startErase s = .ok { s with pend := .obErase, bsy := true, strt := true } := by
  simp [startErase, hp, ho, hl]

theorem startErase_nothing (hp : s.per = false) (h : s.ober = false ∨ s.obl = true) :
    startErase s = .ok s := by
  rcases h with h | h <;> simp [startErase, hp, h]

end

/-- Settles O22: the tests of R123 in their order, and then its start. -/
theorem wrCtlrFollowsItsTests : Obligations.WrCtlrFollowsItsTests := by
  intro a d s hs modes written
  refine ⟨fun hb => ?_, fun hb hl => ?_, fun hb hl hu => ?_, fun hb hl hm => ?_, fun hb hl hu hm => ?_⟩
  · exact exec_one_fault (i := .wrCtlr a d) rfl hs (regWriteCtlr_busy hb)
  · exact exec_one (i := .wrCtlr a d) rfl hs (regWriteCtlr_locked hb hl) rfl
  · exact exec_one_fault (i := .wrCtlr a d) rfl hs (regWriteCtlr_illegal hb hl (.inl hu))
  · exact exec_one_fault (i := .wrCtlr a d) rfl hs (regWriteCtlr_illegal hb hl (.inr hm))
  · let m : State := { s.begun (.wrCtlr a d) with
      pg := bitOf d s.cfg.pgBit, per := bitOf d s.cfg.perBit
      obpg := bitOf d s.cfg.obpgBit, ober := bitOf d s.cfg.oberBit }
    have hw : regWriteCtlr d (s.begun (.wrCtlr a d)) =
        if bitOf d s.cfg.lockBit then .ok { m with lock := true }
        else if bitOf d s.cfg.strtBit then startErase m else .ok m :=
      regWriteCtlr_legal hb hl hu hm rfl
    refine ⟨fun hk => ?_, fun hk hst => ?_, fun hk hst => ?_⟩
    · rw [if_pos hk] at hw
      exact exec_one (i := .wrCtlr a d) rfl hs hw rfl
    · rw [if_neg (by simp [hk]), if_neg (by simp [hst])] at hw
      exact exec_one (i := .wrCtlr a d) rfl hs hw rfl
    · rw [if_neg (by simp [hk]), if_pos hst] at hw
      refine ⟨fun hp hi => ?_, fun hp hi ha => ?_, fun hp hi ha => ?_, fun hp ho hobl => ?_, fun hp hno => ?_⟩
      · exact exec_one_fault (i := .wrCtlr a d) rfl hs (hw.trans (startErase_outside hp hi))
      · exact exec_one_fault (i := .wrCtlr a d) rfl hs (hw.trans (startErase_misaligned hp hi ha))
      · exact exec_one (i := .wrCtlr a d) rfl hs (hw.trans (startErase_page hp hi ha)) rfl
      · exact exec_one (i := .wrCtlr a d) rfl hs (hw.trans (startErase_block hp ho hobl)) rfl
      · exact exec_one (i := .wrCtlr a d) rfl hs (hw.trans (startErase_nothing hp hno)) rfl

/-- Settles O25. -/
theorem wrAddrStoresAddress : Obligations.WrAddrStoresAddress := by
  intro a d s hs
  refine ⟨fun hb => ?_, fun hb => ?_⟩
  · exact exec_one_fault (i := .wrAddr a d) rfl hs (if_pos hb)
  · exact exec_one (i := .wrAddr a d) rfl hs (regWriteAddr_ok.mpr ⟨hb, rfl⟩) rfl

/-- Settles O39: a lock bit written over the CTLR word closes the lock, in either lock state. -/
theorem lockClosesMainLock : Obligations.LockClosesMainLock := by
  intro a d s hc hone hs
  refine ⟨fun hb => ?_, fun hb => ?_⟩
  · exact exec_one_fault (i := .lock a d) rfl hs (regWriteCtlr_busy hb)
  · have hlock := ctlrSet_lock (s := s.begun (.lock a d)) hc hb hone 0 1
    exact exec_one (i := .lock a d) rfl hs hlock rfl

/-! ## Key writes (R124, R125) -/

section
variable {s : State} {v : Word}

theorem regWriteKeyr_of_dead (h : s.mkFsm = .dead) : regWriteKeyr v s = s := by
  simp [regWriteKeyr, h]

theorem regWriteKeyr_of_idle (h : s.mkFsm = .idle) :
    regWriteKeyr v s = { s with mkFsm := if v = s.cfg.key1 then .half else keyFail s.cfg } := by
  simp only [regWriteKeyr, h]
  split_ifs <;> rfl

theorem regWriteKeyr_opens (h : s.mkFsm = .half) (hv : v = s.cfg.key2) :
    regWriteKeyr v s = { s with lock := false, mkFsm := .idle } := by
  simp [regWriteKeyr, h, hv]

theorem regWriteKeyr_fails (h : s.mkFsm = .half) (hv : v ≠ s.cfg.key2) :
    regWriteKeyr v s = { s with mkFsm := keyFail s.cfg } := by
  simp [regWriteKeyr, h, hv]

theorem regWriteObkeyr_ignored (h : s.cfg.obKeyNeedsMainUnlocked = true ∧ s.lock = true) :
    regWriteObkeyr v s = s := by
  simp [regWriteObkeyr, h]

theorem regWriteObkeyr_of_dead (h : s.okFsm = .dead) : regWriteObkeyr v s = s := by
  simp [regWriteObkeyr, h]

theorem regWriteObkeyr_of_idle (hn : ¬(s.cfg.obKeyNeedsMainUnlocked = true ∧ s.lock = true))
    (h : s.okFsm = .idle) :
    regWriteObkeyr v s = { s with okFsm := if v = s.cfg.obKey1 then .half else keyFail s.cfg } := by
  simp only [regWriteObkeyr, h, Bool.and_eq_true, if_neg hn]
  split_ifs <;> rfl

theorem regWriteObkeyr_opens (hn : ¬(s.cfg.obKeyNeedsMainUnlocked = true ∧ s.lock = true))
    (h : s.okFsm = .half) (hv : v = s.cfg.obKey2) :
    regWriteObkeyr v s = { s with obl := false, okFsm := .idle } := by
  simp only [regWriteObkeyr, h, Bool.and_eq_true, if_neg hn, if_pos hv]

theorem regWriteObkeyr_fails (hn : ¬(s.cfg.obKeyNeedsMainUnlocked = true ∧ s.lock = true))
    (h : s.okFsm = .half) (hv : v ≠ s.cfg.obKey2) :
    regWriteObkeyr v s = { s with okFsm := keyFail s.cfg } := by
  simp only [regWriteObkeyr, h, Bool.and_eq_true, if_neg hn, if_neg hv]

end

theorem keyFail_eq_ite (c : Config) : keyFail c = if c.keyFailPolicy = .restart then .idle else .dead := by
  cases h : c.keyFailPolicy <;> simp [keyFail, h]

/-- Settles O23: one key write, from each state of `MK`. -/
theorem wrKeyrStepsMainKeys : Obligations.WrKeyrStepsMainKeys := by
  intro a d s hs fail e
  have hfail : keyFail s.cfg = fail := keyFail_eq_ite s.cfg
  have hrun {t : State} (h : regWriteKeyr d (s.begun (.wrKeyr a d)) = t) (ht : t.spc = 1) :
      exec (.wrKeyr a d) s = .next (t.finish .wrKeyr) :=
    exec_one (i := .wrKeyr a d) (f := fun u => .ok (regWriteKeyr u.rd u)) rfl hs (congrArg _ h) ht
  rw [← hfail]
  refine ⟨fun h => ?_, fun h => ?_, fun h hv => ?_, fun h hv => ?_⟩
  · exact hrun (regWriteKeyr_of_dead h) rfl
  · exact hrun (regWriteKeyr_of_idle h) rfl
  · exact hrun (regWriteKeyr_opens h hv) rfl
  · exact hrun (regWriteKeyr_fails h hv) rfl

/-- Settles O24: one option key write, ignored or from each state of `OK`. -/
theorem wrObkeyrStepsOptionKeys : Obligations.WrObkeyrStepsOptionKeys := by
  intro a d s hs fail e ignored
  have hfail : keyFail s.cfg = fail := keyFail_eq_ite s.cfg
  have hrun {t : State} (h : regWriteObkeyr d (s.begun (.wrObkeyr a d)) = t) (ht : t.spc = 1) :
      exec (.wrObkeyr a d) s = .next (t.finish .wrObkeyr) :=
    exec_one (i := .wrObkeyr a d) (f := fun u => .ok (regWriteObkeyr u.rd u)) rfl hs (congrArg _ h) ht
  rw [← hfail]
  refine ⟨fun h => ?_, fun hn => ⟨fun h => ?_, fun h => ?_, fun h hv => ?_, fun h hv => ?_⟩⟩
  · exact hrun (regWriteObkeyr_ignored h) rfl
  · exact hrun (regWriteObkeyr_of_dead h) rfl
  · exact hrun (regWriteObkeyr_of_idle hn h) rfl
  · exact hrun (regWriteObkeyr_opens hn h hv) rfl
  · exact hrun (regWriteObkeyr_fails hn h hv) rfl

end Sys2Proof.Machine
end

section
/-! PROOFS. The reads and stores of cells (spec R127 to R131, R190, R191, R197 to R202) and the lock guard (R158). -/

namespace Sys2Proof.Machine

/-! ## Cells under the pending operation (R76) -/

theorem affected_iff (s : State) (a : Word) :
    affected s.pend (mainCellOf s.cfg a) = true ↔ s.UnderMain a := by
  cases hp : s.pend <;> simp [affected, State.UnderMain, hp, pageOfCell_mainCellOf]

theorem obAffected_iff (s : State) (c : CellId) : obAffected s.pend c = true ↔ s.UnderOb c := by
  cases hp : s.pend <;> simp [obAffected, State.UnderOb, hp]

section
variable {s : State} {i : Nat} {c : CellId}

theorem readMain_drawn (h : affected s.pend i = true) :
    readMain i s = (Config.any16 s.draws, s.drawn 1) := by
  rw [readMain, if_pos h, State.nextDraw]

theorem readMain_stored (h : ¬affected s.pend i = true) : readMain i s = (s.mainCell i, s) := by
  rw [readMain, if_neg h]

theorem readOb_drawn (h : obAffected s.pend c = true) :
    readOb c s = (Config.any16 s.draws, s.drawn 1) := by
  rw [readOb, if_pos h, State.nextDraw]

theorem readOb_stored (h : ¬obAffected s.pend c = true) : readOb c s = (s.ob.cell c, s) := by
  rw [readOb, if_neg h]

end

/-! ## The bytes of a main cell (R61, R66) -/

@[simp] theorem highByte_append (x y : Byte) : highByte (x ++ y) = x := BitVec.extractLsb'_append_eq_left
@[simp] theorem lowByte_append (x y : Byte) : lowByte (x ++ y) = y := BitVec.extractLsb'_append_eq_right

theorem bitOf_zero_iff (a : Word) : bitOf a 0 = true ↔ a.toNat % 2 = 1 := by
  simp [bitOf, BitVec.getLsbD, Nat.testBit_zero]

/-- A byte is the half of its cell that its address names. -/
theorem byte_of_mainCell {s : State} {a : Word} (hc : s.cfg.Ok) (hi : inMain s.cfg a = true) :
    (if bitOf a 0 then highByte (s.mainCell (mainCellOf s.cfg a))
      else lowByte (s.mainCell (mainCellOf s.cfg a))) = s.mainByte a.toNat := by
  have hbase := hc.base_page
  simp only [inMain, Bool.and_eq_true, decide_eq_true_eq] at hi
  simp only [pageSize] at hbase
  rw [State.mainCell, highByte_append, lowByte_append]
  by_cases hodd : bitOf a 0 = true
  · have hmod := (bitOf_zero_iff a).mp hodd
    rw [if_pos hodd]
    congr 1
    simp only [cellAddr, mainCellOf]
    omega
  · have hmod := (bitOf_zero_iff a).not.mp hodd
    rw [if_neg hodd]
    congr 1
    simp only [cellAddr, mainCellOf]
    omega

/-- A cell at an even address is the two bytes there, the low byte first. -/
theorem mainCell_at {s : State} {a : Word} (hc : s.cfg.Ok) (hi : inMain s.cfg a = true)
    (ha : bitOf a 0 = false) :
    s.mainCell (mainCellOf s.cfg a) = s.mainByte (a.toNat + 1) ++ s.mainByte a.toNat := by
  rw [State.mainCell, cellAddr_mainCellOf hc hi ha]

/-! ## Loads (R127, R128) -/

section
variable {a : Word} {s : State}

theorem memRead8_outside (hi : inMain s.cfg a = false) : memRead8 a s = .error .outOfRange := by
  simp [memRead8, hi]

theorem memRead8_drawn (hi : inMain s.cfg a = true) (h : s.UnderMain a) :
    memRead8 a s = .ok (if bitOf a 0 then highByte (Config.any16 s.draws)
      else lowByte (Config.any16 s.draws), s.drawn 1) := by
  simp [memRead8, hi, readMain_drawn ((affected_iff s a).mpr h)]

theorem memRead8_stored (hc : s.cfg.Ok) (hi : inMain s.cfg a = true) (h : ¬s.UnderMain a) :
    memRead8 a s = .ok (s.mainByte a.toNat, s) := by
  simp [memRead8, hi, readMain_stored ((affected_iff s a).not.mpr h), byte_of_mainCell hc hi]

theorem memRead16_outside (hi : inMain s.cfg a = false) : memRead16 a s = .error .outOfRange := by
  simp [memRead16, hi]

theorem memRead16_misaligned (hi : inMain s.cfg a = true) (ha : bitOf a 0 = true) :
    memRead16 a s = .error .misaligned := by
  simp [memRead16, hi, ha]

theorem memRead16_drawn (hi : inMain s.cfg a = true) (ha : bitOf a 0 = false) (h : s.UnderMain a) :
    memRead16 a s = .ok (Config.any16 s.draws, s.drawn 1) := by
  simp [memRead16, hi, ha, readMain_drawn ((affected_iff s a).mpr h)]

theorem memRead16_stored (hc : s.cfg.Ok) (hi : inMain s.cfg a = true) (ha : bitOf a 0 = false)
    (h : ¬s.UnderMain a) :
    memRead16 a s = .ok (s.mainByte (a.toNat + 1) ++ s.mainByte a.toNat, s) := by
  simp [memRead16, hi, ha, readMain_stored ((affected_iff s a).not.mpr h), mainCell_at hc hi ha]

end

theorem finish_result {op : Op} (h : hasResult op = true) (t : State) :
    t.finish op = { t with seqOp := none, response := some (.value t.res) } := by
  rw [State.finish, responseOf, if_pos h]

theorem finish_done {op : Op} (h : hasResult op = false) (t : State) :
    t.finish op = { t with seqOp := none, response := some .done } := by
  rw [State.finish, responseOf, if_neg (by simp [h])]

/-- A command of one micro-step that loads `f v` into RES, where `v` is what some read `r` gives. -/
theorem exec_load {α : Type} {i : Instr} {s t : State} {r : State → Except Fault (α × State)} {f : α → Word}
    {v : α} (hp : progOf i.op = [actOrFault fun s => (r s).map fun x => { x.2 with res := f x.1 }])
    (hr : hasResult i.op = true) (hs : s.SeqFirst) (h : r (s.begun i) = .ok (v, t)) (ht : t.spc = 1) :
    exec i s = .next { t with res := f v, seqOp := none, response := some (.value (f v)) } := by
  have hload : (r (s.begun i)).map (fun x => ({ x.2 with res := f x.1 } : State)) =
      .ok { t with res := f v } := by rw [h]; rfl
  rw [exec_one hp hs hload ht, finish_result hr]

/-- The same where the read faults. -/
theorem exec_load_fault {α : Type} {i : Instr} {s : State} {r : State → Except Fault (α × State)}
    {f : α → Word} {e : Fault}
    (hp : progOf i.op = [actOrFault fun s => (r s).map fun x => { x.2 with res := f x.1 }])
    (hs : s.SeqFirst) (h : r (s.begun i) = .error e) : exec i s = .fault e := by
  have hload : (r (s.begun i)).map (fun x => ({ x.2 with res := f x.1 } : State)) = .error e := by
    rw [h]; rfl
  exact exec_one_fault hp hs hload

/-- A byte load is a read mapped into RES. -/
theorem loadByte_eq : loadByte =
    actOrFault fun s => (memRead8 s.ra s).map fun x => { x.2 with res := zextByte x.1 } := by
  funext k n s
  simp only [loadByte, actOrFault]
  cases memRead8 s.ra s <;> rfl

theorem loadHalf_eq : loadHalf =
    actOrFault fun s => (memRead16 s.ra s).map fun x => { x.2 with res := zextHalf x.1 } := by
  funext k n s
  simp only [loadHalf, actOrFault]
  cases memRead16 s.ra s <;> rfl

/-- Settles O26: the two commands are one byte load. -/
theorem byteReadsReturnStoredByte : Obligations.ByteReadsReturnStoredByte := by
  intro a d s hc hs mk hmk
  obtain ⟨hp, ha, hd, hr⟩ : progOf (mk a d).op = [loadByte] ∧ (mk a d).a = a ∧ (mk a d).d = d ∧
      hasResult (mk a d).op = true := by
    simp only [List.mem_cons, List.not_mem_nil, or_false] at hmk
    rcases hmk with rfl | rfl <;> exact ⟨rfl, rfl, rfl, rfl⟩
  rw [loadByte_eq] at hp
  generalize mk a d = i at *
  subst ha hd
  refine ⟨fun hi => ?_, fun hi hu => ?_, fun hi hu => ?_⟩
  · exact exec_load_fault hp hs (memRead8_outside hi)
  · exact exec_load (t := s.begun i) hp hr hs (memRead8_stored hc hi hu) rfl
  · exact exec_load hp hr hs (memRead8_drawn hi hu) rfl

/-- Settles O27: the two commands are one half-word load. -/
theorem halfReadsReturnStoredCell : Obligations.HalfReadsReturnStoredCell := by
  intro a d s hc hs mk hmk
  obtain ⟨hp, ha, hd, hr⟩ : progOf (mk a d).op = [loadHalf] ∧ (mk a d).a = a ∧ (mk a d).d = d ∧
      hasResult (mk a d).op = true := by
    simp only [List.mem_cons, List.not_mem_nil, or_false] at hmk
    rcases hmk with rfl | rfl <;> exact ⟨rfl, rfl, rfl, rfl⟩
  rw [loadHalf_eq] at hp
  generalize mk a d = i at *
  subst ha hd
  refine ⟨fun hi => ?_, fun hi hodd => ?_, fun hi heven hu => ?_, fun hi heven hu => ?_⟩
  · exact exec_load_fault hp hs (memRead16_outside hi)
  · exact exec_load_fault hp hs (memRead16_misaligned hi hodd)
  · exact exec_load (t := s.begun i) hp hr hs (memRead16_stored hc hi heven hu) rfl
  · exact exec_load hp hr hs (memRead16_drawn hi heven hu) rfl

/-! ## Stores (R129) -/

section
variable {a : Word} {v : Half} {s : State}

theorem memWrite16_outside (hi : inMain s.cfg a = false) : memWrite16 a v s = .error .outOfRange := by
  simp [memWrite16, hi]

theorem memWrite16_misaligned (hi : inMain s.cfg a = true) (ha : bitOf a 0 = true) :
    memWrite16 a v s = .error .misaligned := by
  simp [memWrite16, hi, ha]

theorem memWrite16_busy (hi : inMain s.cfg a = true) (ha : bitOf a 0 = false) (hb : s.bsy = true) :
    memWrite16 a v s = .error .busyWrite := by
  simp [memWrite16, hi, ha, hb]

theorem memWrite16_dropped (hi : inMain s.cfg a = true) (ha : bitOf a 0 = false) (hb : s.bsy = false)
    (hd : s.lock = true ∨ s.pg = false) : memWrite16 a v s = .ok s := by
  simp [memWrite16, hi, ha, hb, hd]

theorem memWrite16_accepted (hi : inMain s.cfg a = true) (ha : bitOf a 0 = false) (hb : s.bsy = false)
    (hl : s.lock = false) (hg : s.pg = true) :
    memWrite16 a v s = .ok { s with pend := .prog (mainCellOf s.cfg a) v, bsy := true } := by
  simp [memWrite16, hi, ha, hb, hl, hg]

end

/-- Settles O28: one store, its tests in order. -/
theorem st16StartsProgram : Obligations.St16StartsProgram := by
  intro a d s hs
  refine ⟨fun hi => ?_, fun hi hodd => ?_, fun hi heven hb => ?_, fun hi heven hb hd => ?_,
    fun hi heven hb hl hg => ?_⟩
  · exact exec_one_fault (i := .st16 a d) rfl hs (memWrite16_outside hi)
  · exact exec_one_fault (i := .st16 a d) rfl hs (memWrite16_misaligned hi hodd)
  · exact exec_one_fault (i := .st16 a d) rfl hs (memWrite16_busy hi heven hb)
  · exact exec_one (i := .st16 a d) rfl hs (memWrite16_dropped hi heven hb hd) rfl
  · exact exec_one (i := .st16 a d) rfl hs (memWrite16_accepted hi heven hb hl hg) rfl

/-! ## Option cells (R130, R131) -/

theorem cellOf_none {c : BitVec 3} (h : c.toNat > 5) : cellOf c = none := by
  revert c
  decide

section
variable {c : BitVec 3} {id : CellId} {v : Half} {s : State}

theorem obRead_bad (h : cellOf c = none) : obRead c s = .error .badCell := by
  simp only [obRead, h]

theorem obRead_stored (h : cellOf c = some id) (hu : ¬s.UnderOb id) :
    obRead c s = .ok (s.ob.cell id, s) := by
  simp only [obRead, h, readOb_stored ((obAffected_iff s id).not.mpr hu)]

theorem obRead_drawn (h : cellOf c = some id) (hu : s.UnderOb id) :
    obRead c s = .ok (Config.any16 s.draws, s.drawn 1) := by
  simp only [obRead, h, readOb_drawn ((obAffected_iff s id).mpr hu)]

theorem obWrite_bad (h : cellOf c = none) : obWrite c v s = .error .badCell := by
  simp only [obWrite, h]

theorem obWrite_named (h : cellOf c = some id) : obWrite c v s = writeOb id v s := by
  simp only [obWrite, h]

theorem writeOb_busy (hb : s.bsy = true) : writeOb id v s = .error .busyWrite := if_pos hb

theorem writeOb_dropped (hb : s.bsy = false) (hd : s.lock = true ∨ s.obl = true ∨ s.obpg = false) :
    writeOb id v s = .ok s := by
  simp [writeOb, hb, or_assoc, hd]

theorem writeOb_accepted (hb : s.bsy = false) (hl : s.lock = false) (ho : s.obl = false)
    (hg : s.obpg = true) : writeOb id v s = .ok { s with pend := .obProg id v, bsy := true } := by
  simp [writeOb, hb, hl, ho, hg]

end

/-- The read of LDOB, mapped into RES. -/
theorem progLdob_eq : progLdob =
    [actOrFault fun s => (obRead (cellOperand s.ra) s).map fun x => { x.2 with res := zextHalf x.1 }] := by
  rw [progLdob]
  congr 1
  funext k n s
  simp only [actOrFault]
  cases obRead (cellOperand s.ra) s <;> rfl

/-- Settles O29. -/
theorem ldobReturnsRawCell : Obligations.LdobReturnsRawCell := by
  intro a d s hs
  refine ⟨fun h => ?_, fun c h hu => ?_, fun c h hu => ?_⟩
  · exact exec_load_fault (i := .ldob a d) progLdob_eq hs (obRead_bad (cellOf_none h))
  · exact exec_load (i := .ldob a d) (t := s.begun (.ldob a d)) progLdob_eq rfl hs (obRead_stored h hu) rfl
  · exact exec_load (i := .ldob a d) progLdob_eq rfl hs (obRead_drawn h hu) rfl

/-- Settles O30: one store, its tests in order. -/
theorem stobStartsOptionProgram : Obligations.StobStartsOptionProgram := by
  intro a d s hs
  refine ⟨fun h => ?_, fun c h hb => ?_, fun c h hb hd => ?_, fun c h hb hl ho hg => ?_⟩
  · exact exec_one_fault (i := .stob a d) rfl hs (obWrite_bad (cellOf_none h))
  · exact exec_one_fault (i := .stob a d) rfl hs ((obWrite_named h).trans (writeOb_busy hb))
  · exact exec_one (i := .stob a d) rfl hs ((obWrite_named h).trans (writeOb_dropped hb hd)) rfl
  · exact exec_one (i := .stob a d) rfl hs ((obWrite_named h).trans (writeOb_accepted hb hl ho hg)) rfl

/-- A command that reads one field returns the decoded cell, or the decoding of a draw. -/
theorem exec_readField {i : Instr} {c : CellId} {s : State} (hp : progOf i.op = [readField c])
    (hr : hasResult i.op = true) (hs : s.SeqFirst) :
    (¬s.UnderOb c → exec i s =
      .next { s.ended i.a i.d 1 (.value (zextByte (decodeCell (s.ob.cell c)))) with
        res := zextByte (decodeCell (s.ob.cell c)) }) ∧
    (s.UnderOb c → exec i s =
      .next { s.ended i.a i.d 1 (.value (zextByte (decodeCell (Config.any16 s.draws)))) with
        res := zextByte (decodeCell (Config.any16 s.draws)), draws := s.draws + 1 }) := by
  have hload {v : Half} {t : State} (h : readOb c (s.begun i) = (v, t)) (ht : t.spc = 1) :=
    exec_load (r := fun u => .ok (readOb c u)) (f := fun w => zextByte (decodeCell w)) hp hr hs
      (congrArg Except.ok h) ht
  refine ⟨fun hu => ?_, fun hu => ?_⟩
  · exact hload (t := s.begun i) (readOb_stored ((obAffected_iff s c).not.mpr hu)) rfl
  · exact hload (readOb_drawn ((obAffected_iff s c).mpr hu)) rfl

/-- Settles O57: the six reads are one, of six cells. -/
theorem fieldReadsReturnDecodedCell : Obligations.FieldReadsReturnDecodedCell := by
  intro a d s hs r hmem
  simp only [List.mem_cons, List.not_mem_nil, or_false] at hmem
  rcases hmem with rfl | rfl | rfl | rfl | rfl | rfl
  · exact exec_readField (i := .readUser a d) rfl rfl hs
  · exact exec_readField (i := .readRdpr a d) rfl rfl hs
  · exact exec_readField (i := .readWrpr1 a d) rfl rfl hs
  · exact exec_readField (i := .readWrpr0 a d) rfl rfl hs
  · exact exec_readField (i := .readData1 a d) rfl rfl hs
  · exact exec_readField (i := .readData0 a d) rfl rfl hs

/-! ## The lock guard (R158) -/

/-- The guarded commands open with the guard, and return nothing. -/
theorem guarded_opens {op : Op} (h : guarded op = true) :
    (progOf op)[0]? = some guardLock ∧ hasResult op = false := by
  match op, h with
  | .erasePage, _ | .program16, _ | .program8x2, _ | .programFloat, _ | .writeOb16, _ | .writeOb8x2, _ =>
    exact ⟨rfl, rfl⟩

/-- Settles O40: the guard sends SEQ to END in its first micro-step. -/
theorem lockedCommandsAreNoOps : Obligations.LockedCommandsAreNoOps := by
  intro i s hg hc hs hl
  obtain ⟨hfirst, hres⟩ := guarded_opens hg
  have hstep : seqStep i.op (progOf i.op) { s.accept i.op i.a i.d with turns := s.turns.tail } =
      .ok (State.finish i.op
        { s.begun i with rt := ctlrWord s, spc := (progOf i.op).length }) :=
    seqStep_last hfirst (guardLock_locked (s := s.begun i) hc hl 0 (progOf i.op).length) le_rfl
  rw [finish_done hres] at hstep
  rw [exec_eq]
  exact drive_seq_last (s := s.accept i.op i.a i.d) hs hstep rfl

/-! ## A turn before the first micro-step (R74, R241) -/

/-- Settles O7: the first entry of the order is used up before SEQ moves. -/
theorem turnBeforeCommandIsTakenFirst : Obligations.TurnBeforeCommandIsTakenFirst := by
  refine ⟨fun i s ts hts => ?_, fun i s ts rest hts hhost => ?_⟩
  · have hbound : runBound s = runBound { s with turns := ts } + 1 := by
      simp +arith only [runBound, hts, List.length_cons]
    have hbound' : runBound (engStep { s with turns := ts }) = runBound { s with turns := ts } := by
      obtain ⟨-, -, -, hturns, -⟩ := engStep_keeps { s with turns := ts }
      rw [runBound, runBound, hturns]
    rw [exec_eq, exec_eq, runCommand, runCommand, hbound, hbound', ← engStep_accept]
    exact drive_eng_turn (s := s.accept i.op i.a i.d) hts
  · have hbound : runBound s = ts.length + 64 + 1 := by
      simp +arith only [runBound, hts, List.length_cons]
    refine ⟨resetStep { s.accept i.op i.a i.d with turns := ts, host := rest }, ?_, ?_⟩
    · rw [exec_eq, runCommand, hbound]
      exact drive_reset_turn (s := s.accept i.op i.a i.d) hts hhost
    · obtain ⟨-, -, hh, hr, ht⟩ := resetStep_keeps { s.accept i.op i.a i.d with turns := ts, host := rest }
      refine ⟨rfl, hr, hh, ht, rfl, rfl, rfl, rfl, fun hp => ?_⟩
      rw [resetStep_main, resetStep_ob,
        spoil_none (s := { s.accept i.op i.a i.d with turns := ts, host := rest }) hp]
      exact ⟨rfl, rfl⟩

end Sys2Proof.Machine
end

section
/-! PROOFS. The laws of the cell code (spec R99), ENG's completion of a program (R133, R135), and RESET (R241,
R242). -/

namespace Sys2Proof.Machine

/-! ## The cell code (R99) -/

theorem decodeCell_encodeCell (b : Byte) : decodeCell (encodeCell b) = b := by
  rw [decodeCell, highByte_encodeCell, lowByte_encodeCell, if_pos (BitVec.not_not)]

theorem validCell_iff_exists (w : Half) : validCell w = true ↔ ∃ b, w = encodeCell b := by
  constructor
  · exact fun h => ⟨lowByte w, (encodeCell_lowByte_of_valid h).symm⟩
  · rintro ⟨b, rfl⟩
    exact validCell_encodeCell b

/-- Settles O55: a word that encodes no byte is not valid, and decodes to 0. -/
theorem cellCodeLaws : Obligations.CellCodeLaws := by
  refine ⟨fun _ => rfl, fun _ => rfl, decodeCell_encodeCell, fun _ _ => encodeCell_injective,
    fun w hw => decodeCell_of_not_valid ?_, validCell_iff_exists⟩
  rw [Bool.eq_false_iff]
  intro hv
  obtain ⟨b, hb⟩ := (validCell_iff_exists w).mp hv
  exact hw b hb

/-! ## ENG's completion of a program (R133, R135) -/

section
variable {s : State} {i : Nat} {v : Half} {c : CellId}

theorem completeProg_protected (h : s.cfg.writeProtected (pageOfCell i) = true) :
    completeProg i v s = { s with wrprterr := true } := if_pos h

theorem completeProg_erased (h : s.cfg.writeProtected (pageOfCell i) = false)
    (he : s.mainCell i = erased16) : completeProg i v s = { s.setMainCell i v with eop := true } := by
  rw [completeProg, if_neg (by simp [h]), if_pos he]

theorem completeProg_dirty (h : s.cfg.writeProtected (pageOfCell i) = false)
    (he : s.mainCell i ≠ erased16) :
    completeProg i v s = { (s.drawn 1).setMainCell i (Config.any16 s.draws) with eop := true } := by
  rw [completeProg, if_neg (by simp [h]), if_neg he, State.nextDraw]

theorem completeObProg_erased (he : s.ob.cell c = erased16) :
    completeObProg c v s = { s with ob := s.ob.set c (storedWord s.cfg v), eop := true } := if_pos he

theorem completeObProg_dirty (he : s.ob.cell c ≠ erased16) :
    completeObProg c v s = { s.drawn 1 with ob := s.ob.set c (Config.any16 s.draws), eop := true } :=
  if_neg he

end

/-- A cell written changes its own two bytes alone. -/
theorem mainByte_setMainCell_outside (s : State) {i b : Nat} (w : Half)
    (h : b < cellAddr s.cfg i ∨ cellAddr s.cfg i + 2 ≤ b) : (s.setMainCell i w).mainByte b = s.mainByte b :=
  mainByte_setMainCell_ne s w (by omega) (by omega)

/-- Settles O32: protected, erased and not erased, of main flash and of the option cells. -/
theorem engineProgramsCell : Obligations.EngineProgramsCell := by
  refine ⟨fun s i v hsafe hp => ⟨fun hprot => ?_, fun hopen he => ?_, fun hopen he => ?_⟩,
    fun s c v hsafe hp => ⟨fun he => ?_, fun he => ?_⟩⟩
  · rw [agentStep_eng hsafe, engStep_prog hp, completeProg_protected hprot]
    rfl
  · refine ⟨succeed (s.setMainCell i v), ?_, succeed_setMainCells_frame s i [v], ?_, fun b hb => ?_⟩
    · rw [agentStep_eng hsafe, engStep_prog hp, completeProg_erased hopen he, succeed]
    · rw [mainCell_succeed, mainCell_setMainCell]
    · rw [mainByte_succeed, mainByte_setMainCell_outside s v hb]
  · refine ⟨succeed ((s.drawn 1).setMainCell i (Config.any16 s.draws)), ?_,
      succeed_setMainCells_frame (s.drawn 1) i [_], ?_, fun b hb => ?_⟩
    · rw [agentStep_eng hsafe, engStep_prog hp, completeProg_dirty hopen he, succeed]
    · rw [mainCell_succeed, mainCell_setMainCell]
    · rw [mainByte_succeed, mainByte_setMainCell_outside (s.drawn 1) _ hb]
      exact mainByte_congr rfl b
  · rw [agentStep_eng hsafe, engStep_obProg hp, completeObProg_erased he]
    rfl
  · rw [agentStep_eng hsafe, engStep_obProg hp, completeObProg_dirty he]
    rfl

/-! ## RESET (R241, R242) -/

/-- RESET reads main flash as `Spoil` left it. -/
theorem mainByte_resetStep (s : State) (b : Nat) : (resetStep s).mainByte b = (spoil s).mainByte b :=
  mainByte_congr rfl b

theorem mainCell_resetStep (s : State) (i : Nat) : (resetStep s).mainCell i = (spoil s).mainCell i :=
  mainCell_congr rfl rfl i

theorem resetStep_arrays_of_rested {s : State} (h : s.pend = .none) :
    (resetStep s).main = s.main ∧ (resetStep s).ob = s.ob := by
  rw [resetStep_main, resetStep_ob, spoil_none h]
  exact ⟨rfl, rfl⟩

/-- HOST's RESET, whatever SEQ and ENG are doing. -/
theorem agentStep_reset {s : State} {rest : List HostAction} (hsafe : s.Safe) (hh : s.host = .reset :: rest) :
    agentStep .host s = .next (resetStep { s with host := rest }) := by
  rw [agentStep_safe hsafe, agentMove, hh]

theorem step_reset_calm {s : State} {rest : List HostAction} (hsafe : s.Safe) (hh : s.host = .reset :: rest)
    (ht : s.turns = []) : step s = .next (resetStep { s with host := rest }) := by
  rcases Option.eq_none_or_eq_some s.seqOp with hq | ⟨op, hq⟩
  · exact (step_calm hsafe hq ht (by simp [hh])).trans (hostMove_reset hh)
  · refine (step_busy hsafe hq).trans ?_
    simp only [busyMove, ht, hh]

theorem step_reset_turn {s : State} {rest : List HostAction} {ts : List Agent} (hsafe : s.Safe)
    (hh : s.host = .reset :: rest) (ht : s.turns = .host :: ts) :
    step s = .next (resetStep { s with host := rest, turns := ts }) := by
  rcases Option.eq_none_or_eq_some s.seqOp with hq | ⟨op, hq⟩
  · exact (step_host_turn hsafe hq ht).trans (hostMove_reset (s := { s with turns := ts }) hh)
  · have hbound : runBound s = ts.length + 64 + 1 := by
      simp +arith only [runBound, ht, List.length_cons]
    have hmove : busyMove op s = drive op (progOf op) (ts.length + 64 + 1) s := by
      simp only [busyMove, ht, hbound]
    exact (step_busy hsafe hq).trans (hmove.trans (drive_reset_turn ht hh))

/-- Settles O34: the values RESET gives, and the steps that are a RESET. -/
theorem resetStepClosesAndKeeps : Obligations.ResetStepClosesAndKeeps := by
  refine ⟨fun s => ?_, fun s rest hsafe hh => ?_⟩
  · obtain ⟨hfault, hcfg, hhost, hresp, hturns⟩ := resetStep_keeps s
    exact ⟨⟨rfl, rfl, rfl, rfl, rfl, rfl, rfl, rfl, rfl, rfl, rfl, rfl, rfl, rfl, rfl, rfl⟩,
      hfault, hcfg, hhost, hresp, hturns, resetStep_arrays_of_rested⟩
  · exact ⟨agentStep_reset hsafe hh, step_reset_calm hsafe hh, fun ts => step_reset_turn hsafe hh⟩

theorem length_drawList (s : State) (n : Nat) : (s.drawList n).length = n := by
  rw [State.drawList, List.length_map, List.length_range]

theorem drawList_get (s : State) {n k : Nat} (h : k < (s.drawList n).length) :
    (s.drawList n)[k] = Config.any16 (s.draws + k) := by
  simp only [State.drawList, List.getElem_map, List.getElem_range]

/-- Settles O35: what `Spoil` writes, for each kind of pending operation. -/
theorem resetSpoilsOnlyPendingCells : Obligations.ResetSpoilsOnlyPendingCells := by
  intro s t
  refine ⟨resetStep_arrays_of_rested, fun p hp => ⟨?_, fun k hk => ?_, fun b hb => ?_⟩,
    fun i v hp => ⟨?_, ?_, fun b hb => ?_⟩, fun hp => ?_, fun c v hp => ?_⟩
  · rw [resetStep_ob, spoil_erase hp, setMainCells_ob, drawn_ob]
  · have hlen : k < (s.drawList pageCells).length := by rwa [length_drawList]
    rw [mainCell_resetStep, spoil_erase hp]
    exact (mainCell_setMainCells (s.drawn pageCells) _ k _ hlen).trans (drawList_get s hlen)
  · rw [mainByte_resetStep, spoil_erase hp, mainByte_setMainCells_ne]
    · exact mainByte_congr rfl b
    · rw [length_drawList]
      exact hb
  · rw [resetStep_ob, spoil_prog hp, setMainCell_ob, drawn_ob]
  · rw [mainCell_resetStep, spoil_prog hp, mainCell_setMainCell, State.nextDraw]
  · rw [mainByte_resetStep, spoil_prog hp, mainByte_setMainCell_outside (s.drawn 1) _ hb]
    exact mainByte_congr rfl b
  · rw [resetStep_main, resetStep_ob, spoil_obErase hp]
    exact ⟨rfl, rfl⟩
  · rw [resetStep_main, resetStep_ob, spoil_obProg hp]
    exact ⟨rfl, rfl⟩

end Sys2Proof.Machine
end

section
/-! PROOFS. Runs of several micro-steps with no order of agents left, and the two-step commands (spec R155, R156,
R169, R170, R192, R203). -/

namespace Sys2Proof.Machine

/-! ## Running on -/

/-- With no order left, command `op` stands at micro-step `k`. -/
structure At (op : Op) (k : Nat) (s : State) : Prop where
  calm : s.turns = []
  running : s.seqOp = some op
  spc : s.spc = k

/-- `c` steps of SEQ lead the run from `s` to `t`. -/
def Leads (op : Op) (c : Nat) (s t : State) : Prop :=
  ∀ n, drive op (progOf op) (n + c) s = drive op (progOf op) n t

section
variable {op : Op} {c k : Nat} {s t u : State}

theorem Leads.refl (op : Op) (s : State) : Leads op 0 s s := fun _ => rfl

theorem Leads.trans {c' : Nat} (h : Leads op c s t) (h' : Leads op c' t u) : Leads op (c' + c) s u := by
  intro n
  rw [← Nat.add_assoc, h, h']

theorem Leads.to_eq (h : Leads op c s t) (ht : t = u) : Leads op c s u := ht ▸ h

/-- A micro-step that goes on to the next. -/
theorem Leads.step {m : MicroStep} (hs : At op k s) (hm : (progOf op)[k]? = some m)
    (h : m k (progOf op).length { s with spc := k + 1 } = .ok t) (ht : At op (k + 1) t)
    (hl : k + 1 < (progOf op).length) : Leads op 1 s t :=
  fun _ => drive_calm_act hs.calm hs.spc hm h ht.spc hl (by rw [ht.running]; rfl)

/-- A poll in vain with an operation pending: ENG completes it. -/
theorem Leads.polled {m : MicroStep} (hs : At op k s) (hm : (progOf op)[k]? = some m)
    (h : m k (progOf op).length { s with spc := k + 1 } = .ok t) (ht : At op k t) (hp : t.pend ≠ .none) :
    Leads op 1 s (engStep t) := by
  obtain ⟨hl, -⟩ := List.getElem?_eq_some_iff.mp hm
  have hstep : seqStep op (progOf op) s = .ok t := by
    refine seqStep_more (m := m) (by rw [hs.spc]; exact hm) (by rw [hs.spc]; exact h) ?_
    rw [ht.spc]
    exact hl
  exact fun _ => drive_calm_poll hs.calm hstep (by rw [ht.running]; rfl) (ht.spc.trans hs.spc.symm) hp

end

/-! ## From acceptance to END -/

theorem at_accept {i : Instr} {s : State} (h : s.Calm) : At i.op 0 (s.accept i.op i.a i.d) := ⟨h, rfl, rfl⟩

section
variable {i : Instr} {c k : Nat} {s t u : State} {m : MicroStep}

theorem exec_of_leads (h : s.Calm) (hlead : Leads i.op c (s.accept i.op i.a i.d) t) (hc : c ≤ 63) :
    exec i s = drive i.op (progOf i.op) (63 - c + 1) t := by
  have hfuel : 64 = 63 - c + 1 + c := by omega
  rw [exec_eq, runCommand_calm h, hfuel, hlead]

/-- A run that leads to a last micro-step ends there. -/
theorem exec_ends (h : s.Calm) (hlead : Leads i.op c (s.accept i.op i.a i.d) t) (hc : c ≤ 63)
    (ht : At i.op k t) (hm : (progOf i.op)[k]? = some m)
    (hu : m k (progOf i.op).length { t with spc := k + 1 } = .ok u) (hl : (progOf i.op).length ≤ u.spc) :
    exec i s = .next (u.finish i.op) := by
  rw [exec_of_leads h hlead hc]
  exact drive_calm_end ht.calm ht.spc hm hu hl

/-- A run that leads to a micro-step that faults faults. -/
theorem exec_faults {f : Fault} (h : s.Calm) (hlead : Leads i.op c (s.accept i.op i.a i.d) t) (hc : c ≤ 63)
    (ht : At i.op k t) (hm : (progOf i.op)[k]? = some m)
    (hu : m k (progOf i.op).length { t with spc := k + 1 } = .error f) : exec i s = .fault f := by
  rw [exec_of_leads h hlead hc]
  exact drive_calm_fault ht.calm ht.spc hm hu

/-- A run that leads to a poll in vain with nothing pending is left there (R219). -/
theorem exec_hangs (h : s.Calm) (hlead : Leads i.op c (s.accept i.op i.a i.d) t) (hc : c ≤ 63)
    (ht : At i.op k t) (hm : (progOf i.op)[k]? = some m)
    (hu : m k (progOf i.op).length { t with spc := k + 1 } = .ok u) (hat : At i.op k u)
    (hp : u.pend = .none) : exec i s = .next u := by
  obtain ⟨hl, -⟩ := List.getElem?_eq_some_iff.mp hm
  have hstep : seqStep i.op (progOf i.op) t = .ok u := by
    refine seqStep_more (m := m) (by rw [ht.spc]; exact hm) (by rw [ht.spc]; exact hu) ?_
    rw [hat.spc]
    exact hl
  rw [exec_of_leads h hlead hc]
  exact drive_calm_hang ht.calm hstep (by rw [hat.running]; rfl) (hat.spc.trans ht.spc.symm) hp

end

/-! ## Commands of two micro-steps -/

/-- A command of two micro-steps, neither of which faults or polls. -/
theorem exec_two {i : Instr} {m m' : MicroStep} {s t u : State} (hp : progOf i.op = [m, m']) (h : s.Calm)
    (ht : m 0 2 { s.accept i.op i.a i.d with spc := 1 } = .ok t) (hat : At i.op 1 t)
    (hu : m' 1 2 { t with spc := 2 } = .ok u) (hspc : u.spc = 2) : exec i s = .next (u.finish i.op) := by
  have hfirst : Leads i.op 1 (s.accept i.op i.a i.d) t :=
    .step (at_accept h) (by rw [hp]; rfl) (by rw [hp]; exact ht) hat (by rw [hp]; exact Nat.one_lt_two)
  refine exec_ends h hfirst (by decide) hat (m := m') (by rw [hp]; rfl) (by rw [hp]; exact hu) ?_
  rw [hp, hspc]
  rfl

/-- A two-step command whose first micro-step faults. -/
theorem exec_two_fault_first {i : Instr} {m m' : MicroStep} {s : State} {f : Fault}
    (hp : progOf i.op = [m, m']) (h : s.Calm)
    (hf : m 0 2 { s.accept i.op i.a i.d with spc := 1 } = .error f) : exec i s = .fault f :=
  exec_faults h (Leads.refl _ _) (by decide) (at_accept h) (m := m) (by rw [hp]; rfl) (by rw [hp]; exact hf)

/-- A two-step command whose second micro-step faults. -/
theorem exec_two_fault_second {i : Instr} {m m' : MicroStep} {s t : State} {f : Fault}
    (hp : progOf i.op = [m, m']) (h : s.Calm)
    (ht : m 0 2 { s.accept i.op i.a i.d with spc := 1 } = .ok t) (hat : At i.op 1 t)
    (hf : m' 1 2 { t with spc := 2 } = .error f) : exec i s = .fault f := by
  have hfirst : Leads i.op 1 (s.accept i.op i.a i.d) t :=
    .step (at_accept h) (by rw [hp]; rfl) (by rw [hp]; exact ht) hat (by rw [hp]; exact Nat.one_lt_two)
  exact exec_faults h hfirst (by decide) hat (m := m') (by rw [hp]; rfl) (by rw [hp]; exact hf)

/-- A command of two micro-steps that cannot fault, do not read `SPC` and leave the run running. -/
theorem exec_two_acts {i : Instr} {f g : State → State} {s : State} (hp : progOf i.op = [act f, act g])
    (h : s.Calm) (hf : ∀ s k, f { s with spc := k } = { f s with spc := k })
    (hg : ∀ s k, g { s with spc := k } = { g s with spc := k })
    (hkeep : ∀ s, (f s).turns = s.turns ∧ (f s).seqOp = s.seqOp) :
    exec i s = .next (State.finish i.op { g (f (s.accept i.op i.a i.d)) with spc := 2 }) := by
  obtain ⟨hturns, hq⟩ := hkeep (s.accept i.op i.a i.d)
  exact exec_two hp h (congrArg Except.ok (hf (s.accept i.op i.a i.d) 1)) ⟨hturns.trans h, hq, rfl⟩
    (congrArg Except.ok (hg (f (s.accept i.op i.a i.d)) 2)) rfl

/-- A state with no order left, written as one. -/
theorem exists_calmed {s : State} (h : s.Calm) : ∃ s' : State, s = s'.calmed :=
  ⟨s, by rw [State.calmed, ← h]⟩

/-! ### The unlock commands (R155, R156) -/

theorem keyFail_restart {c : Config} (h : c.keyFailPolicy = .restart) : keyFail c = .idle := by
  simp only [keyFail, h]

theorem keyFail_dead {c : Config} (h : c.keyFailPolicy = .dead) : keyFail c = .dead := by
  simp only [keyFail, h]

theorem KeyFsm.eq_cases (f : KeyFsm) : f = .idle ∨ f = .half ∨ f = .dead := by
  cases f <;> simp

theorem regWriteKeyr_spc (v : Word) (s : State) (k : Nat) :
    regWriteKeyr v { s with spc := k } = { regWriteKeyr v s with spc := k } := by
  rcases KeyFsm.eq_cases s.mkFsm with h | h | h
  · rw [regWriteKeyr_of_idle h]
    exact regWriteKeyr_of_idle h
  · by_cases hv : v = s.cfg.key2
    · rw [regWriteKeyr_opens h hv]
      exact regWriteKeyr_opens h hv
    · rw [regWriteKeyr_fails h hv]
      exact regWriteKeyr_fails h hv
  · rw [regWriteKeyr_of_dead h]
    exact regWriteKeyr_of_dead h

theorem regWriteObkeyr_spc (v : Word) (s : State) (k : Nat) :
    regWriteObkeyr v { s with spc := k } = { regWriteObkeyr v s with spc := k } := by
  by_cases hn : s.cfg.obKeyNeedsMainUnlocked = true ∧ s.lock = true
  · rw [regWriteObkeyr_ignored hn]
    exact regWriteObkeyr_ignored hn
  rcases KeyFsm.eq_cases s.okFsm with h | h | h
  · rw [regWriteObkeyr_of_idle hn h]
    exact regWriteObkeyr_of_idle hn h
  · by_cases hv : v = s.cfg.obKey2
    · rw [regWriteObkeyr_opens hn h hv]
      exact regWriteObkeyr_opens hn h hv
    · rw [regWriteObkeyr_fails hn h hv]
      exact regWriteObkeyr_fails hn h hv
  · rw [regWriteObkeyr_of_dead h]
    exact regWriteObkeyr_of_dead h

theorem regWriteKeyr_keeps (v : Word) (s : State) :
    (regWriteKeyr v s).turns = s.turns ∧ (regWriteKeyr v s).seqOp = s.seqOp := by
  rcases regWriteKeyr_cases v s with e | ⟨-, -, e⟩ <;> rw [e] <;> exact ⟨rfl, rfl⟩

theorem regWriteObkeyr_keeps (v : Word) (s : State) :
    (regWriteObkeyr v s).turns = s.turns ∧ (regWriteObkeyr v s).seqOp = s.seqOp := by
  rcases regWriteObkeyr_cases v s with e | ⟨-, -, e⟩ <;> rw [e] <;> exact ⟨rfl, rfl⟩

/-- The two main keys written one after the other. -/
def unlockKeys (s : State) : State :=
  let t := regWriteKeyr s.cfg.key1 s
  regWriteKeyr t.cfg.key2 t

/-- The two option keys written one after the other. -/
def unlockObKeys (s : State) : State :=
  let t := regWriteObkeyr s.cfg.obKey1 s
  regWriteObkeyr t.cfg.obKey2 t

theorem exec_unlock {a d : Word} {s : State} (h : s.Calm) :
    exec (.unlock a d) s =
      .next (State.finish .unlock { unlockKeys (s.accept .unlock a d) with spc := 2 }) :=
  exec_two_acts (i := .unlock a d) (f := fun s => regWriteKeyr s.cfg.key1 s)
    (g := fun s => regWriteKeyr s.cfg.key2 s) rfl h (fun s => regWriteKeyr_spc s.cfg.key1 s)
    (fun s => regWriteKeyr_spc s.cfg.key2 s) (fun s => regWriteKeyr_keeps s.cfg.key1 s)

theorem exec_unlockOb {a d : Word} {s : State} (h : s.Calm) :
    exec (.unlockOb a d) s =
      .next (State.finish .unlockOb { unlockObKeys (s.accept .unlockOb a d) with spc := 2 }) :=
  exec_two_acts (i := .unlockOb a d) (f := fun s => regWriteObkeyr s.cfg.obKey1 s)
    (g := fun s => regWriteObkeyr s.cfg.obKey2 s) rfl h (fun s => regWriteObkeyr_spc s.cfg.obKey1 s)
    (fun s => regWriteObkeyr_spc s.cfg.obKey2 s) (fun s => regWriteObkeyr_keeps s.cfg.obKey1 s)

section
variable {s : State} {k : KeyFsm}

theorem unlockKeys_idle (h : s.mkFsm = .idle) : unlockKeys s = { s with lock := false } := by
  rw [unlockKeys, regWriteKeyr_of_idle h, if_pos rfl]
  exact (regWriteKeyr_opens (s := { s with mkFsm := .half }) rfl rfl).trans (by rw [← h])

theorem unlockKeys_dead (h : s.mkFsm = .dead) : unlockKeys s = s := by
  rw [unlockKeys, regWriteKeyr_of_dead h, regWriteKeyr_of_dead h]

/-- From HALF the first key is the wrong one: it fails, and so does the second after it. -/
theorem unlockKeys_half (h : s.mkFsm = .half) (hne : s.cfg.key1 ≠ s.cfg.key2) (hk : keyFail s.cfg = k) :
    unlockKeys s = { s with mkFsm := k } := by
  rw [unlockKeys, regWriteKeyr_fails h hne, ← hk]
  cases hp : s.cfg.keyFailPolicy with
  | dead => rw [keyFail_dead hp]; exact regWriteKeyr_of_dead rfl
  | restart =>
    rw [keyFail_restart hp, regWriteKeyr_of_idle rfl, if_neg (Ne.symm hne), keyFail_restart hp]

/-- From HALF with equal keys: the first opens the lock, the second is a first key again. -/
theorem unlockKeys_half_equal (h : s.mkFsm = .half) (he : s.cfg.key1 = s.cfg.key2) :
    unlockKeys s = { s with lock := false, mkFsm := .half } := by
  rw [unlockKeys, regWriteKeyr_opens h he, regWriteKeyr_of_idle rfl, if_pos he.symm]

theorem unlockObKeys_ignored (hi : s.cfg.obKeyNeedsMainUnlocked = true ∧ s.lock = true) :
    unlockObKeys s = s := by
  rw [unlockObKeys, regWriteObkeyr_ignored hi, regWriteObkeyr_ignored hi]

theorem unlockObKeys_dead (h : s.okFsm = .dead) : unlockObKeys s = s := by
  rw [unlockObKeys, regWriteObkeyr_of_dead h, regWriteObkeyr_of_dead h]

variable (hn : ¬(s.cfg.obKeyNeedsMainUnlocked = true ∧ s.lock = true))
include hn

theorem unlockObKeys_idle (h : s.okFsm = .idle) : unlockObKeys s = { s with obl := false } := by
  rw [unlockObKeys, regWriteObkeyr_of_idle hn h, if_pos rfl]
  exact (regWriteObkeyr_opens (s := { s with okFsm := .half }) hn rfl rfl).trans (by rw [← h])

theorem unlockObKeys_half (h : s.okFsm = .half) (hne : s.cfg.obKey1 ≠ s.cfg.obKey2)
    (hk : keyFail s.cfg = k) : unlockObKeys s = { s with okFsm := k } := by
  rw [unlockObKeys, regWriteObkeyr_fails hn h hne, ← hk]
  cases hp : s.cfg.keyFailPolicy with
  | dead => rw [keyFail_dead hp]; exact regWriteObkeyr_of_dead rfl
  | restart =>
    rw [keyFail_restart hp, regWriteObkeyr_of_idle (s := { s with okFsm := .idle }) hn rfl,
      if_neg (Ne.symm hne), keyFail_restart hp]

theorem unlockObKeys_half_equal (h : s.okFsm = .half) (he : s.cfg.obKey1 = s.cfg.obKey2) :
    unlockObKeys s = { s with obl := false, okFsm := .half } := by
  rw [unlockObKeys, regWriteObkeyr_opens hn h he,
    regWriteObkeyr_of_idle (s := { s with obl := false, okFsm := .idle }) hn rfl, if_pos he.symm]

end

/-- Settles O37: two key writes, from each state of `MK`. -/
theorem unlockOpensMainLock : Obligations.UnlockOpensMainLock := by
  intro a d s hs
  obtain ⟨s, rfl⟩ := exists_calmed hs
  let t : State := s.calmed.accept .unlock a d
  rw [exec_unlock hs]
  refine ⟨fun h => ?_, fun h => ?_, fun h hne hp => ?_, fun h hne hp => ?_, fun h he => ?_⟩
  · rw [unlockKeys_idle (s := t) h]; rfl
  · rw [unlockKeys_dead (s := t) h]; rfl
  · rw [unlockKeys_half (s := t) h hne (keyFail_restart hp)]; rfl
  · rw [unlockKeys_half (s := t) h hne (keyFail_dead hp)]; rfl
  · rw [unlockKeys_half_equal (s := t) h he]; rfl

/-- Settles O38: two option key writes, ignored or from each state of `OK`. -/
theorem unlockObOpensOptionLock : Obligations.UnlockObOpensOptionLock := by
  intro a d s hs ignored
  obtain ⟨s, rfl⟩ := exists_calmed hs
  let t : State := s.calmed.accept .unlockOb a d
  rw [exec_unlockOb hs]
  refine ⟨fun hi => ?_, fun hn h => ?_, fun hn h => ?_, fun hn h hne hp => ?_, fun hn h hne hp => ?_,
    fun hn h he => ?_⟩
  · rw [unlockObKeys_ignored (s := t) hi]; rfl
  · rw [unlockObKeys_idle (s := t) hn h]; rfl
  · rw [unlockObKeys_dead (s := t) h]; rfl
  · rw [unlockObKeys_half (s := t) hn h hne (keyFail_restart hp)]; rfl
  · rw [unlockObKeys_half (s := t) hn h hne (keyFail_dead hp)]; rfl
  · rw [unlockObKeys_half_equal (s := t) hn h he]; rfl

end Sys2Proof.Machine
end

section
/-! PROOFS. The waits (spec R169, R170) and the two-step reads (R192, R203). -/

namespace Sys2Proof.Machine

/-! ## The waits -/

section
variable {s : State} (k n : Nat)

theorem spinDone_done (hc : s.cfg.Ok) (hb : s.bsy = false) (he : s.eop = true) :
    spinDone k n s = .ok { s with rt := statrWord s } := by
  simp [spinDone, regReadStatr, bitOf_statrWord_bsy hc, bitOf_statrWord_eop hc, hb, he]

theorem spinDone_waits (hc : s.cfg.Ok) (h : s.bsy = true ∨ s.eop = false) :
    spinDone k n s = .ok { s with rt := statrWord s, spc := k } := by
  rcases h with h | h <;>
    simp [spinDone, regReadStatr, bitOf_statrWord_bsy hc, bitOf_statrWord_eop hc, h]

end

/-- ENG's step sees neither the command in flight nor what its poll read. -/
theorem engStep_polled (s : State) (op : Op) (a d z : Word) :
    engStep { s.accept op a d with rt := z } = { (engStep s).accept op a d with rt := z } := by
  rw [engStep_rt, engStep_accept]

theorem calm_engStep {s : State} (h : s.Calm) : (engStep s).Calm := by
  obtain ⟨-, -, -, hturns, -⟩ := engStep_keeps s
  exact hturns.trans h

theorem engStep_cfg_ok {s : State} (h : s.cfg.Ok) : (engStep s).cfg.Ok := by
  obtain ⟨-, -, -, -, -, hcfg, -⟩ := engStep_keeps s
  rwa [hcfg]

/-- A command at a poll in vain with an operation pending: the command goes on from the state ENG leaves. -/
theorem leads_eng {i : Instr} {m : MicroStep} {s : State} (h : s.Calm) (hp : s.pend ≠ .none)
    (hm : (progOf i.op)[0]? = some m)
    (hpoll : m 0 (progOf i.op).length { s.accept i.op i.a i.d with spc := 1 } =
      .ok { s.accept i.op i.a i.d with rt := statrWord s }) :
    Leads i.op 1 (s.accept i.op i.a i.d) { (engStep s).accept i.op i.a i.d with rt := statrWord s } := by
  rw [← engStep_polled]
  exact .polled (at_accept h) hm hpoll ⟨h, rfl, rfl⟩ hp

/-- Settles O43: one poll, or a poll in vain, ENG's step and a second poll. -/
theorem waitNotBusyEndsNotBusy : Obligations.WaitNotBusyEndsNotBusy := by
  intro a d s hc
  refine ⟨fun hs hb => ?_, fun hs hb hp => ?_⟩
  · rw [exec_eq]
    exact runCommand_one (op := .waitNotBusy) hs
      (spinNotBusy_idle (s := s.begun (.waitNotBusy a d)) hc hb 0 1) le_rfl
  · have hlead := leads_eng (i := .waitNotBusy a d) hs hp (m := spinNotBusy) rfl
      (spinNotBusy_busy (s := { s.accept .waitNotBusy a d with spc := 1 }) hc hb 0 1)
    obtain ⟨hidle, -⟩ := engStep_idle hp
    have hok := engStep_cfg_ok hc
    obtain ⟨e, he⟩ := exists_calmed (calm_engStep hs)
    rw [he] at hlead hidle hok ⊢
    exact exec_ends (i := .waitNotBusy a d) hs hlead (by decide) ⟨rfl, rfl, rfl⟩ (m := spinNotBusy) rfl
      (spinNotBusy_idle (s := { e.calmed.accept .waitNotBusy a d with rt := statrWord s, spc := 1 }) hok hidle 0 1)
      le_rfl

/-- Settles O44. -/
theorem waitDoneConsumesDoneFlag : Obligations.WaitDoneConsumesDoneFlag := by
  intro a d s hc hs
  have hlead (hb : s.bsy = true) (hp : s.pend ≠ .none) :=
    leads_eng (i := .waitDone a d) hs hp (m := spinDone) rfl
      (spinDone_waits (s := { s.accept .waitDone a d with spc := 1 }) 0 2 hc (.inl hb))
  have hok := engStep_cfg_ok hc
  obtain ⟨e, hengine⟩ := exists_calmed (calm_engStep hs)
  refine ⟨fun hb he => ?_, fun hb hp he => ?_, fun hb hp he => ?_, fun hb hp he => ?_⟩
  · obtain ⟨s, rfl⟩ := exists_calmed hs
    exact exec_two (i := .waitDone a d) rfl hs
      (spinDone_done (s := { s.calmed.accept .waitDone a d with spc := 1 }) 0 2 hc hb he) ⟨rfl, rfl, rfl⟩
      (congrArg Except.ok (regWriteStatr_eop hc)) rfl
  · obtain ⟨hidle, -⟩ := engStep_idle hp
    replace hlead := hlead hb hp
    rw [hengine] at hlead hok hidle he ⊢
    have hdone := hlead.trans (.step ⟨rfl, rfl, rfl⟩ (m := spinDone) rfl
      (spinDone_done (s := { e.calmed.accept .waitDone a d with rt := statrWord s, spc := 1 }) 0 2 hok hidle he)
      ⟨rfl, rfl, rfl⟩ Nat.one_lt_two)
    exact exec_ends (i := .waitDone a d) hs hdone (by decide) ⟨rfl, rfl, rfl⟩ (m := clearDone) rfl
      (congrArg Except.ok (regWriteStatr_eop hok)) le_rfl
  · replace hlead := hlead hb hp
    have hnone := engStep_pend s
    rw [hengine] at hlead hok hnone he ⊢
    exact exec_hangs (i := .waitDone a d) hs hlead (by decide) ⟨rfl, rfl, rfl⟩ (m := spinDone) rfl
      (spinDone_waits (s := { e.calmed.accept .waitDone a d with rt := statrWord s, spc := 1 }) 0 2 hok (.inr he))
      ⟨rfl, rfl, rfl⟩ hnone
  · exact exec_hangs (i := .waitDone a d) hs (Leads.refl _ _) (by decide) (at_accept hs) (m := spinDone) rfl
      (spinDone_waits (s := { s.accept .waitDone a d with spc := 1 }) 0 2 hc (.inr he)) ⟨hs, rfl, rfl⟩ hp

/-! ## The two-step reads -/

/-- A read of an option cell draws once where the cell is under the pending operation. -/
theorem readOb_eq (c : CellId) (s : State) :
    readOb c s = (if obAffected s.pend c then Config.any16 s.draws else s.ob.cell c,
      s.drawn (obAffected s.pend c).toNat) := by
  cases h : obAffected s.pend c
  · exact readOb_stored (by simp [h])
  · exact readOb_drawn h

/-- A half-word load draws once where the cell is under the pending operation. -/
theorem memRead16_eq {a : Word} {s : State} (hc : s.cfg.Ok) (hi : inMain s.cfg a = true)
    (ha : bitOf a 0 = false) :
    memRead16 a s = .ok (if affected s.pend (mainCellOf s.cfg a) then Config.any16 s.draws
      else s.mainByte (a.toNat + 1) ++ s.mainByte a.toNat,
      s.drawn (affected s.pend (mainCellOf s.cfg a)).toNat) := by
  cases h : affected s.pend (mainCellOf s.cfg a)
  · exact memRead16_stored hc hi ha ((affected_iff s a).not.mp (by simp [h]))
  · exact memRead16_drawn hi ha ((affected_iff s a).mp h)

/-- Two words joined by a shift are the one above the other. -/
theorem shiftLeft_or_setWidth {n m : Nat} (x : BitVec n) (y : BitVec m) (w : Nat) :
    (x.setWidth w <<< m) ||| y.setWidth w = (x ++ y).setWidth w := by
  ext j hj
  by_cases h : j < m
  · simp [BitVec.getLsbD_append, h]
  · have hy : y.getLsbD j = false := BitVec.getLsbD_of_ge y j (by omega)
    simp [BitVec.getLsbD_append, h, hy]

theorem zextByte_join (x y : Byte) : (zextByte x <<< 8) ||| zextByte y = (x ++ y).setWidth 32 :=
  shiftLeft_or_setWidth x y 32

theorem zextHalf_join (x y : Half) : (zextHalf x <<< 16) ||| zextHalf y = x ++ y :=
  (shiftLeft_or_setWidth x y 32).trans (BitVec.setWidth_eq _)

/-- The two micro-steps of READ_DATA16. -/
def readHigh (s : State) : State :=
  let r := readOb .data1 s
  { r.2 with rt := zextByte (decodeCell r.1) }

def readLow (s : State) : State :=
  let r := readOb .data0 s
  { r.2 with res := (s.rt <<< 8) ||| zextByte (decodeCell r.1) }

/-- Settles O58. -/
theorem readData16JoinsBothFields : Obligations.ReadData16JoinsBothFields := by
  intro a d s hs drawn₁ drawn₀ hi lo v
  obtain ⟨s, rfl⟩ := exists_calmed hs
  have hv : (zextByte hi <<< 8) ||| zextByte lo = v := zextByte_join hi lo
  have hhigh (t : State) (k : Nat) : readHigh { t with spc := k } = { readHigh t with spc := k } := by
    simp only [readHigh, readOb_eq]
    rfl
  have hlow (t : State) (k : Nat) : readLow { t with spc := k } = { readLow t with spc := k } := by
    simp only [readLow, readOb_eq]
    rfl
  have hkeep (t : State) : (readHigh t).turns = t.turns ∧ (readHigh t).seqOp = t.seqOp := by
    simp only [readHigh, readOb_eq]
    exact ⟨rfl, rfl⟩
  rw [exec_two_acts (i := .readData16 a d) (f := readHigh) (g := readLow) rfl hs hhigh hlow hkeep, ← hv]
  simp only [readHigh, readLow, readOb_eq]
  rfl

/-- The next half word of flash is aligned like this one. -/
theorem bitOf_add_two (a : Word) : bitOf (a + 2#32) 0 = bitOf a 0 := by
  rw [Bool.eq_iff_iff, bitOf_zero_iff, bitOf_zero_iff, BitVec.toNat_add]
  simp

/-- What a half-word load at `a` gives: a draw where the cell is under the pending operation. -/
def State.halfAt (s : State) (a : Word) : Half :=
  if affected s.pend (mainCellOf s.cfg a) then Config.any16 s.draws
  else s.mainByte (a.toNat + 1) ++ s.mainByte a.toNat

/-- How often a half-word load at `a` draws. -/
def State.drawsAt (s : State) (a : Word) : Nat := (affected s.pend (mainCellOf s.cfg a)).toNat

/-- The two micro-steps of READ_FLOAT, each a read mapped into its register. -/
def floatLow (s : State) : Except Fault State :=
  (memRead16 s.ra s).map fun x => { x.2 with rt := zextHalf x.1 }

def floatHigh (s : State) : Except Fault State :=
  (memRead16 (s.ra + 2#32) s).map fun x => { x.2 with res := (zextHalf x.1 <<< 16) ||| x.2.rt }

theorem progReadFloat_eq : progReadFloat = [actOrFault floatLow, actOrFault floatHigh] := by
  rw [progReadFloat]
  congr 1
  · funext k n s
    simp only [actOrFault, floatLow]
    cases memRead16 s.ra s <;> rfl
  · congr 1
    funext k n s
    simp only [actOrFault, floatHigh]
    cases memRead16 (s.ra + 2#32) s <;> rfl

section
variable {s : State}

theorem floatLow_outside (hi : inMain s.cfg s.ra = false) : floatLow s = .error .outOfRange := by
  rw [floatLow, memRead16_outside hi]
  rfl

theorem floatLow_misaligned (hi : inMain s.cfg s.ra = true) (ha : bitOf s.ra 0 = true) :
    floatLow s = .error .misaligned := by
  rw [floatLow, memRead16_misaligned hi ha]
  rfl

theorem floatLow_ok (hc : s.cfg.Ok) (hi : inMain s.cfg s.ra = true) (ha : bitOf s.ra 0 = false) :
    floatLow s = .ok { s.drawn (s.drawsAt s.ra) with rt := zextHalf (s.halfAt s.ra) } := by
  rw [floatLow, memRead16_eq hc hi ha]
  rfl

theorem floatHigh_outside (hi : inMain s.cfg (s.ra + 2#32) = false) : floatHigh s = .error .outOfRange := by
  rw [floatHigh, memRead16_outside hi]
  rfl

theorem floatHigh_ok (hc : s.cfg.Ok) (hi : inMain s.cfg (s.ra + 2#32) = true) (ha : bitOf s.ra 0 = false) :
    floatHigh s = .ok { s.drawn (s.drawsAt (s.ra + 2#32)) with
      res := (zextHalf (s.halfAt (s.ra + 2#32)) <<< 16) ||| s.rt } := by
  rw [floatHigh, memRead16_eq hc hi ((bitOf_add_two s.ra).trans ha)]
  rfl

end

/-- Settles O52: each half is read where its load does not fault, and joined over the other. -/
theorem readFloatAssemblesBothHalves : Obligations.ReadFloatAssemblesBothHalves := by
  intro a d s hc hs
  obtain ⟨s, rfl⟩ := exists_calmed hs
  have hp : progOf (Instr.readFloat a d).op = [actOrFault floatLow, actOrFault floatHigh] := progReadFloat_eq
  let t : State := { s.calmed.accept .readFloat a d with spc := 1 }
  let u : State := { t.drawn (t.drawsAt a) with rt := zextHalf (t.halfAt a), spc := 2 }
  refine ⟨fun hi => ?_, fun hi hodd => ?_, fun hi heven hi' => ?_, fun hi heven hi' => ?_⟩
  · exact exec_two_fault_first hp hs (floatLow_outside (s := t) hi)
  · exact exec_two_fault_first hp hs (floatLow_misaligned (s := t) hi hodd)
  · exact exec_two_fault_second hp hs (floatLow_ok (s := t) hc hi heven) ⟨rfl, rfl, rfl⟩
      (floatHigh_outside (s := u) hi')
  · intro drawn₀ drawn₁ lo hi'' v
    have hv : (zextHalf hi'' <<< 16) ||| zextHalf lo = v := zextHalf_join hi'' lo
    rw [← hv]
    exact exec_two hp hs (floatLow_ok (s := t) hc hi heven) ⟨rfl, rfl, rfl⟩
      (floatHigh_ok (s := u) hc hi' heven) rfl

end Sys2Proof.Machine
end

section
/-! PROOFS. The program commands (spec R180 to R182), with no order of agents left. -/

namespace Sys2Proof.Machine

/-! ## An unlocked, idle block -/

/-- A state with what `UnlockedIdle` and `Calm` fix, written as one. -/
abbrev State.idled (s : State) : State :=
  { s with
    turns := [], lock := false, bsy := false, pend := .none, strt := false
    pg := false, per := false, obpg := false, ober := false }

theorem exists_idled {s : State} (h : s.UnlockedIdle) (hs : s.Calm) : ∃ s' : State, s = s'.idled := by
  obtain ⟨-, hl, ⟨hb, hp, hst⟩, hpg, hper, hobpg, hober⟩ := h
  have ht : s.turns = [] := hs
  refine ⟨s, ?_⟩
  cases s
  simp_all

/-! ## The macros inside a run -/

section
variable {op : Op} {k : Nat} {s : State} (hat : At op k s) (hc : s.cfg.Ok)
include hat hc

theorem leads_guard (hm : (progOf op)[k]? = some guardLock) (hlen : k + 1 < (progOf op).length)
    (hl : s.lock = false) : Leads op 1 s { s with rt := ctlrWord s, spc := k + 1 } :=
  .step hat hm (guardLock_unlocked (s := { s with spc := k + 1 }) hc hl k _) ⟨hat.calm, hat.running, rfl⟩ hlen

theorem leads_spin (hm : (progOf op)[k]? = some spinNotBusy) (hlen : k + 1 < (progOf op).length)
    (hb : s.bsy = false) : Leads op 1 s { s with rt := statrWord s, spc := k + 1 } :=
  .step hat hm (spinNotBusy_idle (s := { s with spc := k + 1 }) hc hb k _) ⟨hat.calm, hat.running, rfl⟩ hlen

theorem leads_spin_busy (hm : (progOf op)[k]? = some spinNotBusy) (hb : s.bsy = true) (hp : s.pend ≠ .none) :
    Leads op 1 s (engStep { s with rt := statrWord s }) := by
  have hpoll := spinNotBusy_busy (s := { s with spc := k + 1 }) hc hb k (progOf op).length
  have hspc : ({ s with rt := statrWord s, spc := k } : State) = { s with rt := statrWord s } := by
    rw [← hat.spc]
  rw [← hspc]
  exact .polled hat hm hpoll ⟨hat.calm, hat.running, rfl⟩ hp

/-- The guard and the first wait, on an unlocked block that is not busy. -/
theorem leads_opening (hm : (progOf op)[k]? = some guardLock) (hm' : (progOf op)[k + 1]? = some spinNotBusy)
    (hlen : k + 2 < (progOf op).length) (hl : s.lock = false) (hb : s.bsy = false) :
    Leads op 2 s { s with rt := statrWord s, spc := k + 2 } :=
  (leads_guard hat hc hm (by omega) hl).trans
    (leads_spin (s := { s with rt := ctlrWord s, spc := k + 1 }) ⟨hat.calm, hat.running, rfl⟩ hc hm' hlen hb)

end

/-! ## One cell (R180) -/

/-- The micro-steps of a part of a program stand where the part does. -/
theorem getElem?_of_drop {α : Type} {l ms rest : List α} {k j : Nat} {m : α} (h : l.drop k = ms ++ rest)
    (hm : ms[j]? = some m) : l[k + j]? = some m := by
  obtain ⟨hj, -⟩ := List.getElem?_eq_some_iff.mp hm
  rw [← List.getElem?_drop, h, List.getElem?_append_left hj, hm]

/-- What ENG makes of a program of cell `i` with `v`. -/
def State.programmed (s : State) (i : Nat) (v : Half) : State := finishPending (completeProg i v s)

section
variable {s : State} {i : Nat} {v : Half}

theorem programmed_protected (h : s.cfg.writeProtected (pageOfCell i) = true) :
    s.programmed i v = finishPending { s with wrprterr := true } := by
  rw [State.programmed, completeProg_protected h]

theorem programmed_erased (h : s.cfg.writeProtected (pageOfCell i) = false) (he : s.mainCell i = erased16) :
    s.programmed i v = succeed (s.setMainCell i v) := by
  rw [State.programmed, completeProg_erased h he, succeed]

theorem programmed_dirty (h : s.cfg.writeProtected (pageOfCell i) = false) (he : s.mainCell i ≠ erased16) :
    s.programmed i v = succeed ((s.drawn 1).setMainCell i (Config.any16 s.draws)) := by
  rw [State.programmed, completeProg_dirty h he, succeed]

/-- What a completed program changes. -/
theorem programmed_frame (s : State) (i : Nat) (v : Half) :
    s.programmed i v = { s with
      main := (s.programmed i v).main, eop := (s.programmed i v).eop
      wrprterr := (s.programmed i v).wrprterr, draws := (s.programmed i v).draws
      pend := .none, bsy := false, strt := false } := by
  by_cases h : s.cfg.writeProtected (pageOfCell i) = true
  · rw [programmed_protected h]; rfl
  · rw [Bool.not_eq_true] at h
    by_cases he : s.mainCell i = erased16
    · rw [programmed_erased h he]; rfl
    · rw [programmed_dirty h he]; rfl

theorem programmed_keeps (s : State) (i : Nat) (v : Half) :
    (s.programmed i v).turns = s.turns ∧ (s.programmed i v).seqOp = s.seqOp ∧
      (s.programmed i v).cfg = s.cfg ∧ (s.programmed i v).bsy = false := by
  rw [programmed_frame]
  exact ⟨rfl, rfl, rfl, rfl⟩

/-- ENG's step does not see the registers and the mode bit the program is started with. -/
theorem engStep_programming (s : State) (i : Nat) (v : Half) (r : Word) (c : Nat) :
    engStep { s with rt := r, pg := true, pend := .prog i v, bsy := true, spc := c } =
      { s.programmed i v with rt := r, pg := true, spc := c } := by
  rw [engStep_prog (i := i) (v := v) rfl]
  by_cases h : s.cfg.writeProtected (pageOfCell i) = true
  · rw [programmed_protected h, completeProg_protected]
    exacts [rfl, h]
  · rw [Bool.not_eq_true] at h
    by_cases he : s.mainCell i = erased16
    · rw [programmed_erased h he, completeProg_erased]
      exacts [rfl, h, he]
    · rw [programmed_dirty h he, completeProg_dirty]
      exacts [rfl, h, he]

end

section
variable {op : Op} {k : Nat} {s : State} {rest : List MicroStep}
  (hd : (progOf op).drop k = program16Steps ++ rest) (hat : At op k s) (h : s.UnlockedIdle)
include hd hat h

/-- A half word's program comes to its store with PG set. -/
theorem leads_store : Leads op 3 s { s with rt := statrWord s, pg := true, spc := k + 3 } := by
  have hlen : k + 5 < (progOf op).length :=
    (List.getElem?_eq_some_iff.mp (getElem?_of_drop hd (j := 5) rfl)).1
  have hopen := leads_opening hat h.cfg_ok (getElem?_of_drop hd (j := 0) rfl)
    (getElem?_of_drop hd (j := 1) rfl) (by omega) h.unlocked h.rested.1
  obtain ⟨-, hper, hobpg, hober⟩ := h.modes
  have hset := ctlrSet_pg (s := { s with rt := statrWord s, spc := k + 3 }) h.cfg_ok h.rested.1 h.unlocked
    h.rested.2.2 hper hobpg hober (k + 2) (progOf op).length
  exact hopen.trans (.step (k := k + 2) ⟨hat.calm, hat.running, rfl⟩ (getElem?_of_drop hd (j := 2) rfl) hset
    ⟨hat.calm, hat.running, rfl⟩ (by omega))

/-- The program of one half word, up to the clearing of PG. -/
theorem leads_program {t : State} (hi : inMain s.cfg s.ra = true) (ha : bitOf s.ra 0 = false)
    (ht : s.programmed (mainCellOf s.cfg s.ra) (lowHalf s.rd) = t) :
    Leads op 6 s { t with rt := statrWord t, pg := true, spc := k + 5 } := by
  subst ht
  have hlen : k + 5 < (progOf op).length :=
    (List.getElem?_eq_some_iff.mp (getElem?_of_drop hd (j := 5) rfl)).1
  have hstore := memWrite16_accepted (v := lowHalf s.rd)
    (s := { s with rt := statrWord s, pg := true, spc := k + 4 }) hi ha h.rested.1 h.unlocked rfl
  have hstored := (leads_store hd hat h).trans (.step (k := k + 3) ⟨hat.calm, hat.running, rfl⟩
    (getElem?_of_drop hd (j := 3) rfl) hstore ⟨hat.calm, hat.running, rfl⟩ (by omega))
  let z : Word := statrWord { s with bsy := true }
  have hwait := leads_spin_busy (k := k + 4) (s := { s with
    rt := statrWord s, pg := true, pend := .prog (mainCellOf s.cfg s.ra) (lowHalf s.rd), bsy := true, spc := k + 4 })
    ⟨hat.calm, hat.running, rfl⟩ h.cfg_ok (getElem?_of_drop hd (j := 4) rfl) rfl (by simp)
  have heng := engStep_programming s (mainCellOf s.cfg s.ra) (lowHalf s.rd) z (k + 4)
  obtain ⟨hturns, hq, hcfg, hidle⟩ := programmed_keeps s (mainCellOf s.cfg s.ra) (lowHalf s.rd)
  have hspin := leads_spin (k := k + 4) (s := { s.programmed (mainCellOf s.cfg s.ra) (lowHalf s.rd) with
    rt := z, pg := true, spc := k + 4 })
    ⟨hturns.trans hat.calm, hq.trans hat.running, rfl⟩ (by rw [hcfg]; exact h.cfg_ok)
    (getElem?_of_drop hd (j := 4) rfl) (by omega) hidle
  exact hstored.trans ((hwait.to_eq heng).trans hspin)

end

/-- What a completed program leaves unlocked and idle is so after it. -/
theorem programmed_idle {s : State} (h : s.UnlockedIdle) (i : Nat) (v : Half) :
    (s.programmed i v).UnlockedIdle := by
  rw [programmed_frame]
  exact ⟨h.cfg_ok, h.unlocked, ⟨rfl, rfl, rfl⟩, h.modes⟩

/-- The clearing of PG on a block that is idle but for PG. -/
theorem ctlrClr_pg_of_idle {s : State} (h : s.UnlockedIdle) (r : Word) (c k n : Nat) :
    ctlrClr Config.pgBit k n { s with rt := r, pg := true, spc := c } =
      .ok { s with rt := r, pg := false, spc := c } := by
  obtain ⟨-, hper, hobpg, hober⟩ := h.modes
  have hone : State.OneMode { s with rt := r, pg := true, spc := c } := by
    simp only [State.OneMode, hper, hobpg, hober]
    decide
  obtain ⟨hclr, -⟩ := ctlrClr_mode (s := { s with rt := r, pg := true, spc := c }) h.cfg_ok h.rested.1
    h.unlocked h.rested.2.2 hone k n
  exact hclr

/-- The program of one half word inside a command, PG cleared. -/
theorem leads_programmed {op : Op} {k : Nat} {s t : State} {rest : List MicroStep}
    (hd : (progOf op).drop k = program16Steps ++ rest) (hat : At op k s) (h : s.UnlockedIdle)
    (hi : inMain s.cfg s.ra = true) (ha : bitOf s.ra 0 = false) (hlen : k + 6 < (progOf op).length)
    (ht : s.programmed (mainCellOf s.cfg s.ra) (lowHalf s.rd) = t) :
    Leads op 7 s { t with rt := statrWord t, pg := false, spc := k + 6 } := by
  have hlead := leads_program hd hat h hi ha ht
  obtain ⟨hturns, hq, -, -⟩ := programmed_keeps s (mainCellOf s.cfg s.ra) (lowHalf s.rd)
  have hidle := programmed_idle h (mainCellOf s.cfg s.ra) (lowHalf s.rd)
  rw [ht] at hturns hq hidle
  exact hlead.trans (.step (k := k + 5) ⟨hturns.trans hat.calm, hq.trans hat.running, rfl⟩
    (getElem?_of_drop hd (j := 5) rfl) (ctlrClr_pg_of_idle hidle (statrWord t) (k + 6) (k + 5) (progOf op).length)
    ⟨hturns.trans hat.calm, hq.trans hat.running, rfl⟩ hlen)

/-- A command that ends with the program of a half word. -/
theorem exec_ends_programmed {i : Instr} {c k : Nat} {s t u : State} (hs : s.Calm)
    (hlead : Leads i.op c (s.accept i.op i.a i.d) u) (hc : c ≤ 57)
    (hd : (progOf i.op).drop k = program16Steps) (hat : At i.op k u) (h : u.UnlockedIdle)
    (hr : hasResult i.op = false) (hi : inMain u.cfg u.ra = true) (ha : bitOf u.ra 0 = false)
    (ht : u.programmed (mainCellOf u.cfg u.ra) (lowHalf u.rd) = t) :
    exec i s = .next { t with
      rt := statrWord t, pg := false, spc := k + 6, seqOp := none, response := some .done } := by
  have hd' : (progOf i.op).drop k = program16Steps ++ [] := by rw [hd, List.append_nil]
  have hlen : (progOf i.op).length ≤ k + 6 := by
    have hlength := congrArg List.length hd
    rw [List.length_drop] at hlength
    simp only [program16Steps, List.length_cons, List.length_nil] at hlength
    omega
  have hlead' := leads_program hd' hat h hi ha ht
  obtain ⟨hturns, hq, -, -⟩ := programmed_keeps u (mainCellOf u.cfg u.ra) (lowHalf u.rd)
  have hidle := programmed_idle h (mainCellOf u.cfg u.ra) (lowHalf u.rd)
  rw [ht] at hturns hq hidle
  have hend := exec_ends hs (hlead.trans hlead') (by omega) (k := k + 5)
    ⟨hturns.trans hat.calm, hq.trans hat.running, rfl⟩ (getElem?_of_drop hd' (j := 5) rfl)
    (ctlrClr_pg_of_idle hidle (statrWord t) (k + 6) (k + 5) (progOf i.op).length) hlen
  rw [hend, finish_done hr]

/-! ## PROGRAM_16 and PROGRAM_8X2 -/

theorem accept_idle {s : State} (h : s.UnlockedIdle) (op : Op) (a d : Word) : (s.accept op a d).UnlockedIdle :=
  ⟨h.cfg_ok, h.unlocked, h.rested, h.modes⟩

/-- The two commands are one micro-program. -/
theorem program16_cases {a d : Word} {mk : Word → Word → Instr} (h : mk ∈ [Instr.program16, Instr.program8x2]) :
    progOf (mk a d).op = program16Steps ∧ (mk a d).a = a ∧ (mk a d).d = d ∧ hasResult (mk a d).op = false := by
  simp only [List.mem_cons, List.not_mem_nil, or_false] at h
  rcases h with rfl | rfl <;> exact ⟨rfl, rfl, rfl, rfl⟩

theorem exec_program {i : Instr} {s t : State} (hp : progOf i.op = program16Steps) (hr : hasResult i.op = false)
    (h : s.UnlockedIdle) (hs : s.Calm) (hi : inMain s.cfg i.a = true) (ha : bitOf i.a 0 = false)
    (ht : (s.accept i.op i.a i.d).programmed (mainCellOf s.cfg i.a) (lowHalf i.d) = t) :
    exec i s = .next { t with
      rt := statrWord t, pg := false, spc := 6, seqOp := none, response := some .done } :=
  exec_ends_programmed hs (.refl _ _) (by decide) hp (at_accept hs) (accept_idle h i.op i.a i.d) hr hi ha ht

section
variable {s : State} {a : Word} {w : Half}

/-- The two bytes of a cell written at its address. -/
theorem mainByte_setMainCell_at (hc : s.cfg.Ok) (hi : inMain s.cfg a = true) (ha : bitOf a 0 = false) :
    (s.setMainCell (mainCellOf s.cfg a) w).mainByte a.toNat = lowByte w ∧
    (s.setMainCell (mainCellOf s.cfg a) w).mainByte (a.toNat + 1) = highByte w := by
  have hcell := mainCell_at (s := s.setMainCell (mainCellOf s.cfg a) w) hc hi ha
  rw [setMainCell_cfg, mainCell_setMainCell] at hcell
  exact ⟨((congrArg lowByte hcell).trans (lowByte_append _ _)).symm,
    ((congrArg highByte hcell).trans (highByte_append _ _)).symm⟩

theorem mainByte_setMainCell_off (hc : s.cfg.Ok) (hi : inMain s.cfg a = true) (ha : bitOf a 0 = false)
    {b : Nat} (hb : b < a.toNat ∨ a.toNat + 2 ≤ b) :
    (s.setMainCell (mainCellOf s.cfg a) w).mainByte b = s.mainByte b :=
  mainByte_setMainCell_outside s w (by rwa [cellAddr_mainCellOf hc hi ha])

/-- A cell whose two bytes are 0xFF is erased. -/
theorem mainCell_erased_of_bytes (hc : s.cfg.Ok) (hi : inMain s.cfg a = true) (ha : bitOf a 0 = false)
    (h0 : s.mainByte a.toNat = 0xFF#8) (h1 : s.mainByte (a.toNat + 1) = 0xFF#8) :
    s.mainCell (mainCellOf s.cfg a) = erased16 := by
  rw [mainCell_at hc hi ha, h0, h1]
  rfl

end

/-- Settles O48: the erased cell takes the datum. -/
theorem programWritesErasedCell : Obligations.ProgramWritesErasedCell := by
  intro a d s h hs hi ha hw h0 h1 mk hmk
  obtain ⟨hp, hia, hid, hr⟩ := program16_cases (a := a) (d := d) hmk
  generalize mk a d = i at *
  subst hia hid
  obtain ⟨s, rfl⟩ := exists_idled h hs
  let u : State := s.idled.accept i.op i.a i.d
  have he : u.mainCell (mainCellOf u.cfg i.a) = erased16 := mainCell_erased_of_bytes h.cfg_ok hi ha h0 h1
  have hdone : u.programmed (mainCellOf u.cfg i.a) (lowHalf i.d) = _ :=
    programmed_erased (by rw [pageOfCell_mainCellOf]; exact hw) he
  obtain ⟨hlow, hhigh⟩ := mainByte_setMainCell_at (s := u) (w := lowHalf i.d) h.cfg_ok hi ha
  refine ⟨_, exec_program hp hr h hs hi ha hdone, rfl, ?_, ?_, fun b hb => ?_⟩
  · rw [← lowByte_lowHalf, ← hlow]
    exact mainByte_congr rfl _
  · rw [← highByte_lowHalf, ← hhigh]
    exact mainByte_congr rfl _
  · exact (mainByte_congr rfl b).trans (mainByte_setMainCell_off (s := u) (w := lowHalf i.d) h.cfg_ok hi ha hb)

/-- Settles O49: on a protected page WRPRTERR alone; in a cell that is not erased a draw. -/
theorem programOffTheHappyPath : Obligations.ProgramOffTheHappyPath := by
  intro a d s h hs hi ha mk hmk
  obtain ⟨hp, hia, hid, hr⟩ := program16_cases (a := a) (d := d) hmk
  generalize mk a d = i at *
  subst hia hid
  obtain ⟨s, rfl⟩ := exists_idled h hs
  let u : State := s.idled.accept i.op i.a i.d
  refine ⟨fun hw => ?_, fun hw hne => ?_⟩
  · have hdone : u.programmed (mainCellOf u.cfg i.a) (lowHalf i.d) = _ :=
      programmed_protected (by rw [pageOfCell_mainCellOf]; exact hw)
    exact ⟨_, exec_program hp hr h hs hi ha hdone⟩
  · have hdirty : u.mainCell (mainCellOf u.cfg i.a) ≠ erased16 := by
      rw [mainCell_at (s := u) h.cfg_ok hi ha]
      exact hne
    have hdone : u.programmed (mainCellOf u.cfg i.a) (lowHalf i.d) = _ :=
      programmed_dirty (by rw [pageOfCell_mainCellOf]; exact hw) hdirty
    obtain ⟨hlow, hhigh⟩ := mainByte_setMainCell_at (s := u.drawn 1) (w := Config.any16 u.draws) h.cfg_ok hi ha
    refine ⟨_, exec_program hp hr h hs hi ha hdone, rfl, ?_, fun b hb => ?_⟩
    · have hjoin := highByte_append_lowByte (Config.any16 u.draws)
      rw [← hlow, ← hhigh] at hjoin
      exact (congrArg₂ (· ++ ·) (mainByte_congr rfl _) (mainByte_congr rfl _)).trans hjoin
    · exact (mainByte_congr rfl b).trans (mainByte_setMainCell_off (s := u.drawn 1)
        (w := Config.any16 u.draws) h.cfg_ok hi ha hb)

/-! ## Bad addresses -/

/-- The three commands open with the program of a half word. -/
theorem program_cases {a d : Word} {mk : Word → Word → Instr}
    (h : mk ∈ [Instr.program16, Instr.program8x2, Instr.programFloat]) :
    (mk a d).a = a ∧ ∃ rest, (progOf (mk a d).op).drop 0 = program16Steps ++ rest := by
  simp only [List.mem_cons, List.not_mem_nil, or_false] at h
  rcases h with rfl | rfl | rfl
  · exact ⟨rfl, [], rfl⟩
  · exact ⟨rfl, [], rfl⟩
  · exact ⟨rfl, _, rfl⟩

/-- A program whose store faults faults. -/
theorem exec_store_fault {i : Instr} {c k : Nat} {s u : State} {rest : List MicroStep} {f : Fault} (hs : s.Calm)
    (hlead : Leads i.op c (s.accept i.op i.a i.d) u) (hc : c ≤ 60)
    (hd : (progOf i.op).drop k = program16Steps ++ rest) (hat : At i.op k u) (h : u.UnlockedIdle)
    (hf : ∀ t : State, t.cfg = u.cfg → memWrite16 u.ra (lowHalf u.rd) t = .error f) : exec i s = .fault f :=
  exec_faults hs (hlead.trans (leads_store hd hat h)) (by omega) (k := k + 3) ⟨hat.calm, hat.running, rfl⟩
    (getElem?_of_drop hd (j := 3) rfl) (hf _ rfl)

/-! ## PROGRAM_FLOAT -/

/-- PROGRAM_FLOAT between its halves: the operands of the second half are in RA and RD. -/
abbrev State.betweenHalves (t : State) (a f : Word) : State :=
  { t with rt := statrWord t, pg := false, spc := 7, ra := a + 2#32, rd := f >>> 16 }

section
variable {s t : State} {a f : Word} (h : s.UnlockedIdle) (hs : s.Calm) (hi : inMain s.cfg a = true)
  (ha : bitOf a 0 = false)
  (ht : (s.accept .programFloat a f).programmed (mainCellOf s.cfg a) (lowHalf f) = t)
include h hs hi ha ht

theorem leads_firstHalf :
    Leads .programFloat 8 (s.accept .programFloat a f) (t.betweenHalves a f) ∧
      At .programFloat 7 (t.betweenHalves a f) ∧ (t.betweenHalves a f).UnlockedIdle := by
  have hu : (s.accept .programFloat a f).UnlockedIdle := accept_idle h .programFloat a f
  have hat : At .programFloat 0 (s.accept .programFloat a f) := at_accept (i := .programFloat a f) hs
  have hlead := leads_programmed (op := .programFloat) (k := 0) rfl hat hu hi ha (by decide) ht
  obtain ⟨hturns, hq, -, -⟩ := programmed_keeps (s.accept .programFloat a f) (mainCellOf s.cfg a) (lowHalf f)
  have hidle := programmed_idle hu (mainCellOf s.cfg a) (lowHalf f)
  have hops : t.ra = a ∧ t.rd = f := by
    rw [← ht, programmed_frame]
    exact ⟨rfl, rfl⟩
  obtain ⟨hra, hrd⟩ := hops
  rw [ht] at hturns hq hidle
  have hshift : ({ t with rt := statrWord t, pg := false, spc := 7, ra := t.ra + 2#32, rd := t.rd >>> 16 } : State) =
      t.betweenHalves a f := by rw [hra, hrd]
  have hstep := Leads.step (k := 6) (s := { t with rt := statrWord t, pg := false, spc := 6 })
    (op := .programFloat) ⟨hturns.trans hs, hq, rfl⟩ rfl (congrArg Except.ok hshift) ⟨hturns.trans hs, hq, rfl⟩
    (by decide)
  refine ⟨hlead.trans hstep, ⟨hturns.trans hs, hq, rfl⟩, hidle.cfg_ok, hidle.unlocked, hidle.rested, rfl, ?_⟩
  exact hidle.modes.2

end

/-- Settles O50: the store faults, of the first half or of the second. -/
theorem programFaultsOnBadAddress : Obligations.ProgramFaultsOnBadAddress := by
  intro a d s h hs
  refine ⟨fun mk hmk => ?_, fun hi ha hi' => ?_⟩
  · obtain ⟨hia, rest, hd⟩ := program_cases (a := a) (d := d) hmk
    generalize mk a d = i at *
    subst hia
    have hfault {f : Fault} (hf : ∀ t : State, t.cfg = s.cfg → memWrite16 i.a (lowHalf i.d) t = .error f) :
        exec i s = .fault f :=
      exec_store_fault hs (.refl _ _) (by decide) hd (at_accept hs) (accept_idle h i.op i.a i.d) hf
    refine ⟨fun hi => hfault fun t ht => ?_, fun hi ha => hfault fun t ht => ?_⟩
    · exact memWrite16_outside (ht ▸ hi)
    · exact memWrite16_misaligned (ht ▸ hi) ha
  · obtain ⟨hlead, hat, hidle⟩ := leads_firstHalf (f := d) h hs hi ha rfl
    have hcfg : ((s.accept .programFloat a d).programmed (mainCellOf s.cfg a) (lowHalf d)).cfg = s.cfg := by
      rw [programmed_frame]
      rfl
    exact exec_store_fault (i := .programFloat a d) (k := 7) (rest := []) hs hlead (by decide) rfl hat hidle
      fun t ht => memWrite16_outside (by rw [ht.trans hcfg]; exact hi')

/-- The next half word is another cell, even where the address wraps. -/
theorem toNat_add_two (a : Word) : (a + 2#32).toNat = (a.toNat + 2) % 2 ^ 32 := by
  rw [BitVec.toNat_add]
  rfl

theorem mainCellOf_add_two_ne {c : Config} {a : Word} (hc : c.Ok) (hi : inMain c a = true)
    (hi' : inMain c (a + 2#32) = true) (ha : bitOf a 0 = false) :
    mainCellOf c (a + 2#32) ≠ mainCellOf c a := by
  intro he
  have h0 := cellAddr_mainCellOf hc hi ha
  have h1 := cellAddr_mainCellOf hc hi' ((bitOf_add_two a).trans ha)
  rw [he, h0, toNat_add_two] at h1
  have := a.isLt
  omega

theorem lowByte_shifted (f : Word) : lowByte (lowHalf (f >>> 16)) = f.extractLsb' 16 8 := by
  ext j hj
  simp [lowByte, lowHalf]

theorem highByte_shifted (f : Word) : highByte (lowHalf (f >>> 16)) = f.extractLsb' 24 8 := by
  ext j hj
  simp [highByte, lowHalf, ← Nat.add_assoc]

/-- A word is its four bytes. -/
theorem bytes_append (f : Word) :
    (f.extractLsb' 24 8 ++ f.extractLsb' 16 8 : Half) ++ (f.extractLsb' 8 8 ++ f.extractLsb' 0 8 : Half) = f := by
  have hhigh : (f.extractLsb' 24 8 ++ f.extractLsb' 16 8 : Half) = f.extractLsb' 16 16 :=
    BitVec.extractLsb'_append_extractLsb'_eq_extractLsb' rfl
  have hlow : (f.extractLsb' 8 8 ++ f.extractLsb' 0 8 : Half) = f.extractLsb' 0 16 :=
    BitVec.extractLsb'_append_extractLsb'_eq_extractLsb' rfl
  rw [hhigh, hlow]
  exact (BitVec.extractLsb'_append_extractLsb'_eq_extractLsb' rfl).trans BitVec.extractLsb'_eq_self

/-- Settles O51: the program of the half word at `a`, and then of the one at `a + 2`, which the first left erased. -/
theorem programFloatWritesBothHalves : Obligations.ProgramFloatWritesBothHalves := by
  intro a f s h hs hi hi' ha hw hw' h0 h1 h2 h3
  obtain ⟨s, rfl⟩ := exists_idled h hs
  have ha' : bitOf (a + 2#32) 0 = false := (bitOf_add_two a).trans ha
  let u : State := s.idled.accept .programFloat a f
  let x : State := u.setMainCell (mainCellOf u.cfg a) (lowHalf f)
  have hfirst : u.programmed (mainCellOf u.cfg a) (lowHalf f) = succeed x :=
    programmed_erased (by rw [pageOfCell_mainCellOf]; exact hw)
      (mainCell_erased_of_bytes (s := u) h.cfg_ok hi ha h0 h1)
  obtain ⟨hlead, hat, hidle⟩ := leads_firstHalf (f := f) h hs hi ha hfirst
  let w : State := (succeed x).betweenHalves a f
  have hcell : w.mainCell (mainCellOf w.cfg (a + 2#32)) = erased16 :=
    calc w.mainCell (mainCellOf w.cfg (a + 2#32))
        _ = x.mainCell (mainCellOf u.cfg (a + 2#32)) := mainCell_congr rfl rfl _
        _ = u.mainCell (mainCellOf u.cfg (a + 2#32)) :=
          mainCell_setMainCell_ne u _ (mainCellOf_add_two_ne h.cfg_ok hi hi' ha)
        _ = erased16 := mainCell_erased_of_bytes (s := u) h.cfg_ok hi' ha' h2 h3
  have hsecond : w.programmed (mainCellOf w.cfg (a + 2#32)) (lowHalf (f >>> 16)) = _ :=
    programmed_erased (by rw [pageOfCell_mainCellOf]; exact hw') hcell
  obtain ⟨hb0, hb1⟩ := mainByte_setMainCell_at (s := u) (w := lowHalf f) h.cfg_ok hi ha
  obtain ⟨hb2, hb3⟩ := mainByte_setMainCell_at (s := w) (w := lowHalf (f >>> 16)) h.cfg_ok hi' ha'
  have hoff {b : Nat} (hb : b < (a + 2#32).toNat ∨ (a + 2#32).toNat + 2 ≤ b) :=
    mainByte_setMainCell_off (s := w) (w := lowHalf (f >>> 16)) h.cfg_ok hi' ha' hb
  have hfirstBytes {b : Nat} {v : Byte} (hb : b = a.toNat ∨ b = a.toNat + 1) (hv : x.mainByte b = v) :
      (w.setMainCell (mainCellOf w.cfg (a + 2#32)) (lowHalf (f >>> 16))).mainByte b = v := by
    refine (hoff ?_).trans ((mainByte_congr rfl b).trans hv)
    have := a.isLt
    rw [toNat_add_two]
    omega
  refine ⟨_, exec_ends_programmed (i := .programFloat a f) (k := 7) hs hlead (by decide) rfl hat hidle rfl hi' ha'
    hsecond, rfl, ?_, ?_, ?_, ?_, fun b hb hb' => ?_⟩
  · exact (mainByte_congr rfl _).trans (hfirstBytes (.inl rfl) (hb0.trans (lowByte_lowHalf f)))
  · exact (mainByte_congr rfl _).trans (hfirstBytes (.inr rfl) (hb1.trans (highByte_lowHalf f)))
  · exact (mainByte_congr rfl _).trans (hb2.trans (lowByte_shifted f))
  · exact (mainByte_congr rfl _).trans (hb3.trans (highByte_shifted f))
  · exact (mainByte_congr rfl b).trans ((hoff hb').trans ((mainByte_congr rfl b).trans
      (mainByte_setMainCell_off (s := u) (w := lowHalf f) h.cfg_ok hi ha hb)))

/-- Settles O53: the read finds the four bytes the program stored, nothing pending. -/
theorem floatRoundTrip : Obligations.FloatRoundTrip := by
  intro a f d s h hs hi hi' ha hw hw' h0 h1 h2 h3
  obtain ⟨t, hrun, ht, hb0, hb1, hb2, hb3, -⟩ :=
    programFloatWritesBothHalves a f s h hs hi hi' ha hw hw' h0 h1 h2 h3
  have hcfg : t.cfg = s.cfg := Eq.trans (congrArg State.cfg ht) rfl
  have hpend : t.pend = .none := (congrArg State.pend ht).trans h.rested.2.1
  have hcalm : t.Calm := by
    refine (congrArg State.turns ht).trans ?_
    exact (congrArg List.tail hs).trans rfl
  rw [← hcfg] at hi hi'
  obtain ⟨-, -, -, hread⟩ := readFloatAssemblesBothHalves a d t (hcfg ▸ h.cfg_ok) hcalm
  have hno (i : Nat) : affected t.pend i = false := by rw [hpend]; rfl
  refine ⟨t, _, hrun, hread hi ha hi', ?_⟩
  simp only [ended_response, hno, Bool.false_eq_true, if_false, hb0, hb1, hb2, hb3, bytes_append]

end Sys2Proof.Machine
end

section
/-! PROOFS. ERASE_PAGE (spec R175, R176), with no order of agents left, and the stray mode bits (R175, R180, R204). -/

namespace Sys2Proof.Machine

/-! ## The page erase -/

/-- What ENG makes of an erase of page `p`. -/
def State.pageErased (s : State) (p : Nat) : State := finishPending (completeErase p s)

section
variable {s : State} {p : Nat}

theorem completeErase_protected (h : s.cfg.writeProtected p = true) :
    completeErase p s = { s with wrprterr := true } := if_pos h

theorem completeErase_unprotected (h : s.cfg.writeProtected p = false) :
    completeErase p s = { s.erasedPage p with eop := true } := by
  rw [completeErase, if_neg (by simp [h]), State.erasedPage]

theorem pageErased_protected (h : s.cfg.writeProtected p = true) :
    s.pageErased p = finishPending { s with wrprterr := true } := by
  rw [State.pageErased, completeErase_protected h]

theorem pageErased_unprotected (h : s.cfg.writeProtected p = false) :
    s.pageErased p = succeed (s.erasedPage p) := by
  rw [State.pageErased, completeErase_unprotected h, succeed]

/-- What a completed page erase changes. -/
theorem pageErased_frame (s : State) (p : Nat) :
    s.pageErased p = { s with
      main := (s.pageErased p).main, eop := (s.pageErased p).eop, wrprterr := (s.pageErased p).wrprterr
      pend := .none, bsy := false, strt := false } := by
  by_cases h : s.cfg.writeProtected p = true
  · rw [pageErased_protected h]; rfl
  · rw [Bool.not_eq_true] at h
    rw [pageErased_unprotected h]
    simp only [State.erasedPage, State.setMainCells]
    generalize Memory.writeHalves _ _ _ = m
    rfl

/-- ENG's step does not see the registers and the mode bit the erase is started with. -/
theorem engStep_erasing (s : State) (p : Nat) (a r : Word) (c : Nat) :
    engStep { s with
      rt := r, per := true, addr := a, pend := .erase p, bsy := true, strt := true, spc := c } =
      { s.pageErased p with rt := r, per := true, addr := a, spc := c } := by
  rw [engStep_erase (p := p) rfl]
  by_cases h : s.cfg.writeProtected p = true
  · rw [pageErased_protected h, completeErase_protected]
    exacts [rfl, h]
  · rw [Bool.not_eq_true] at h
    rw [pageErased_unprotected h, completeErase_unprotected]
    · simp only [State.erasedPage, State.setMainCells]
      generalize Memory.writeHalves _ _ _ = m
      rfl
    · exact h

end

section
variable {s : State} {a d : Word} (h : s.UnlockedIdle) (hs : s.Calm)
include h hs

/-- ERASE_PAGE comes to its start bit with PER set and the address in ADDR. -/
theorem leads_eraseStart : Leads .erasePage 4 (s.accept .erasePage a d)
    { s.accept .erasePage a d with rt := statrWord s, per := true, addr := a, spc := 4 } := by
  have hat : At .erasePage 0 (s.accept .erasePage a d) := at_accept (i := .erasePage a d) hs
  obtain ⟨hpg, -, hobpg, hober⟩ := h.modes
  have hset := ctlrSet_per (s := { s.accept .erasePage a d with rt := statrWord s, spc := 3 }) h.cfg_ok h.rested.1
    h.unlocked h.rested.2.2 hpg hobpg hober 2 7
  have haddr : regWriteAddr a { s.accept .erasePage a d with rt := statrWord s, per := true, spc := 4 } = .ok _ :=
    regWriteAddr_ok.mpr ⟨h.rested.1, rfl⟩
  exact ((leads_opening hat h.cfg_ok rfl rfl (by decide) h.unlocked h.rested.1).trans
    (.step (k := 2) ⟨hs, rfl, rfl⟩ rfl hset ⟨hs, rfl, rfl⟩ (by decide))).trans
    (.step (k := 3) ⟨hs, rfl, rfl⟩ rfl haddr ⟨hs, rfl, rfl⟩ (by decide))

omit hs in
/-- The start bit with PER set starts the erase, where the address allows it. -/
theorem ctlrSet_strt_erase (k n : Nat) :
    ctlrSet Config.strtBit k n
      { s.accept .erasePage a d with rt := statrWord s, per := true, addr := a, spc := 5 } =
      startErase { s.accept .erasePage a d with rt := statrWord s, per := true, addr := a, spc := 5 } := by
  obtain ⟨hpg, -, hobpg, hober⟩ := h.modes
  refine ctlrSet_strt (s := { s.accept .erasePage a d with rt := statrWord s, per := true, addr := a, spc := 5 })
    h.cfg_ok h.rested.1 h.unlocked ?_ k n
  simp only [State.OneMode, accept_pg, accept_obpg, accept_ober, hpg, hobpg, hober]
  decide

theorem exec_erasePage_fault {f : Fault}
    (hf : ∀ t : State, t.cfg = s.cfg → t.per = true → t.addr = a → startErase t = .error f) :
    exec (.erasePage a d) s = .fault f :=
  exec_faults (i := .erasePage a d) (k := 4) hs (leads_eraseStart h hs) (by decide) ⟨hs, rfl, rfl⟩ rfl
    ((ctlrSet_strt_erase h 4 7).trans (hf _ rfl rfl rfl))

/-- The erase of a page, up to the clearing of PER. -/
theorem leads_erase {t : State} (hi : inMain s.cfg a = true) (ha : a.toNat % 64 = 0)
    (ht : (s.accept .erasePage a d).pageErased (pageOf s.cfg a) = t) :
    Leads .erasePage 7 (s.accept .erasePage a d) { t with rt := statrWord t, per := true, addr := a, spc := 6 } := by
  have hstart := (ctlrSet_strt_erase (a := a) (d := d) h 4 7).trans (startErase_page rfl hi ha)
  have hstarted := (leads_eraseStart h hs).trans
    (.step (k := 4) ⟨hs, rfl, rfl⟩ rfl hstart ⟨hs, rfl, rfl⟩ (by decide))
  let z : Word := statrWord { s with bsy := true }
  have hwait := leads_spin_busy (op := .erasePage) (k := 5) (s := { s.accept .erasePage a d with
    rt := statrWord s, per := true, addr := a, pend := .erase (pageOf s.cfg a), bsy := true, strt := true, spc := 5 })
    ⟨hs, rfl, rfl⟩ h.cfg_ok rfl rfl (by simp)
  have heng := engStep_erasing (s.accept .erasePage a d) (pageOf s.cfg a) a z 5
  have hkeeps : t.turns = [] ∧ t.seqOp = some .erasePage ∧ t.cfg = s.cfg ∧ t.bsy = false := by
    rw [← ht, pageErased_frame]
    exact ⟨hs, rfl, rfl, rfl⟩
  obtain ⟨hturns, hq, hcfg, hidle⟩ := hkeeps
  rw [ht] at heng
  have hspin := leads_spin (op := .erasePage) (k := 5) (s := { t with rt := z, per := true, addr := a, spc := 5 })
    ⟨hturns, hq, rfl⟩ (by rw [hcfg]; exact h.cfg_ok) rfl (by decide) hidle
  exact hstarted.trans ((hwait.to_eq heng).trans hspin)

theorem exec_erasePage {t : State} (hi : inMain s.cfg a = true) (ha : a.toNat % 64 = 0)
    (ht : (s.accept .erasePage a d).pageErased (pageOf s.cfg a) = t) :
    exec (.erasePage a d) s = .next { t with
      rt := statrWord t, per := false, addr := a, spc := 7, seqOp := none, response := some .done } := by
  have hkeeps : t.turns = [] ∧ t.seqOp = some .erasePage ∧ t.UnlockedIdle := by
    rw [← ht, pageErased_frame]
    exact ⟨hs, rfl, h.cfg_ok, h.unlocked, ⟨rfl, rfl, rfl⟩, h.modes⟩
  obtain ⟨hturns, hq, hidle⟩ := hkeeps
  obtain ⟨hpg, -, hobpg, hober⟩ := hidle.modes
  have hone : State.OneMode { t with rt := statrWord t, per := true, addr := a, spc := 7 } := by
    simp only [State.OneMode, hpg, hobpg, hober]
    decide
  obtain ⟨-, hclr, -⟩ := ctlrClr_mode
    (s := { t with rt := statrWord t, per := true, addr := a, spc := 7 }) hidle.cfg_ok hidle.rested.1
    hidle.unlocked hidle.rested.2.2 hone 6 7
  exact exec_ends (i := .erasePage a d) (k := 6) hs (leads_erase h hs hi ha ht) (by decide) ⟨hturns, hq, rfl⟩ rfl
    hclr le_rfl

end

/-- Every byte of an erased page is 0xFF. -/
theorem mainByte_erasedPage (s : State) {p b : Nat} (hlo : cellAddr s.cfg (pageCells * p) ≤ b)
    (hhi : b < cellAddr s.cfg (pageCells * p) + 2 * pageCells) : (s.erasedPage p).mainByte b = 0xFF#8 := by
  obtain ⟨k, rfl⟩ := Nat.exists_eq_add_of_le hlo
  have hcell : (s.erasedPage p).mainCell (pageCells * p + k / 2) = erased16 :=
    mainCell_erasedPage s (by omega) (by omega)
  have haddr : cellAddr (s.erasedPage p).cfg (pageCells * p + k / 2) =
      cellAddr s.cfg (pageCells * p) + 2 * (k / 2) := by
    simp only [cellAddr, State.erasedPage, setMainCells_cfg]
    omega
  rw [State.mainCell, haddr] at hcell
  obtain heven | hodd := Nat.mod_two_eq_zero_or_one k
  · have hlow := congrArg lowByte hcell
    rw [lowByte_append, show 2 * (k / 2) = k by omega] at hlow
    exact hlow
  · have hhigh := congrArg highByte hcell
    rw [highByte_append, Nat.add_assoc, show 2 * (k / 2) + 1 = k by omega] at hhigh
    exact hhigh

/-- Settles O45: the page erased is the page at `a`. -/
theorem erasePageErasesOnePage : Obligations.ErasePageErasesOnePage := by
  intro a d s h hs hi ha hw
  obtain ⟨s, rfl⟩ := exists_idled h hs
  let u : State := s.idled.accept .erasePage a d
  have hdone : u.pageErased (pageOf u.cfg a) = succeed (u.erasedPage (pageOf u.cfg a)) := pageErased_unprotected hw
  have hpage : cellAddr u.cfg (pageCells * pageOf u.cfg a) = a.toNat := cellAddr_page h.cfg_ok hi ha
  have hin {b : Nat} (hlo : a.toNat ≤ b) (hhi : b < a.toNat + 64) := mainByte_erasedPage u (p := pageOf u.cfg a)
    (b := b) (hpage ▸ hlo) (hpage ▸ hhi)
  have hout {b : Nat} (hb : b < a.toNat ∨ a.toNat + 64 ≤ b) := mainByte_erasedPage_ne u (p := pageOf u.cfg a)
    (b := b) (hpage ▸ hb)
  obtain ⟨m, hm⟩ : ∃ m, u.erasedPage (pageOf u.cfg a) = { u with main := m } := ⟨_, rfl⟩
  rw [hm] at hdone hin hout
  refine ⟨_, exec_erasePage h hs hi ha hdone, rfl, fun b hlo hhi => ?_, fun b hb => ?_⟩
  · exact (mainByte_congr rfl b).trans (hin hlo hhi)
  · exact (mainByte_congr rfl b).trans ((hout hb).trans (mainByte_congr rfl b))

/-- Settles O46. -/
theorem erasePageOffTheHappyPath : Obligations.ErasePageOffTheHappyPath := by
  intro a d s h hs
  refine ⟨fun hi ha hw => ?_, fun hi => ?_, fun hi ha => ?_⟩
  · obtain ⟨s, rfl⟩ := exists_idled h hs
    exact ⟨_, exec_erasePage h hs hi ha (pageErased_protected hw)⟩
  · exact exec_erasePage_fault h hs fun t hc hp hadr => startErase_outside hp (by rw [hc, hadr, hi])
  · exact exec_erasePage_fault h hs fun t hc hp hadr =>
      startErase_misaligned hp (by rw [hc, hadr, hi]) (by rw [hadr]; exact ha)

end Sys2Proof.Machine
end

section
/-! PROOFS. The option writes (spec R204, R205, R208), with no order of agents left, and the stray mode bits (R175,
R180, R204). -/

namespace Sys2Proof.Machine

/-! ## The snapshot -/

theorem act_readOb {c : CellId} {f : Half → State → State} {s : State} (h : s.pend = .none) (k n : Nat) :
    act (fun s => f (readOb c s).1 (readOb c s).2) k n s = .ok (f (s.ob.cell c) s) := by
  simp only [act, readOb_rested h]

/-- The four cells to restore and the two bytes to write, taken into the registers. -/
abbrev State.snapshot (s : State) : State :=
  { s with
    rs0 := s.ob.user, rs1 := s.ob.rdpr, rs2 := s.ob.wrpr1, rs3 := s.ob.wrpr0
    rb1 := highByte (lowHalf s.rd), rb0 := lowByte (lowHalf s.rd) }

section
variable {op : Op} {s : State} (hp : progOf op = writeObSteps)
include hp

theorem writeOb_step {k : Nat} {m : MicroStep} (hm : writeObSteps[k]? = some m) : (progOf op)[k]? = some m := by
  rw [hp, hm]

theorem writeOb_length : (progOf op).length = 25 := by
  rw [hp]
  rfl

/-- A micro-step of an option write, before the last. -/
theorem leads_writeOb {k : Nat} {m : MicroStep} {t : State} (hat : At op k s) (hm : writeObSteps[k]? = some m)
    (h : m k 25 { s with spc := k + 1 } = .ok t) (ht : At op (k + 1) t) (hk : k < 24) : Leads op 1 s t := by
  have hlen := writeOb_length hp
  exact .step hat (writeOb_step hp hm) (by rw [hlen]; exact h) ht (by omega)

theorem leads_read {k : Nat} {c : CellId} {f : Half → State → State} (hat : At op k s)
    (hm : writeObSteps[k]? = some (act fun s => f (readOb c s).1 (readOb c s).2)) (hpend : s.pend = .none)
    (hf : At op (k + 1) (f (s.ob.cell c) { s with spc := k + 1 })) (hk : k < 24) :
    Leads op 1 s (f (s.ob.cell c) { s with spc := k + 1 }) :=
  leads_writeOb hp hat hm (act_readOb (s := { s with spc := k + 1 }) hpend k 25) hf hk

theorem leads_snapshot (hat : At op 2 s) (hpend : s.pend = .none) :
    Leads op 5 s { s.snapshot with spc := 7 } := by
  have h2 := leads_read hp (f := fun v u => { u with rs0 := v }) (c := .user) hat rfl hpend
    ⟨hat.calm, hat.running, rfl⟩ (by decide)
  have h3 := h2.trans (leads_read hp (k := 3) (f := fun v u => { u with rs1 := v }) (c := .rdpr)
    ⟨hat.calm, hat.running, rfl⟩ rfl hpend ⟨hat.calm, hat.running, rfl⟩ (by decide))
  have h4 := h3.trans (leads_read hp (k := 4) (f := fun v u => { u with rs2 := v }) (c := .wrpr1)
    ⟨hat.calm, hat.running, rfl⟩ rfl hpend ⟨hat.calm, hat.running, rfl⟩ (by decide))
  have h5 := h4.trans (leads_read hp (k := 5) (f := fun v u => { u with rs3 := v }) (c := .wrpr0)
    ⟨hat.calm, hat.running, rfl⟩ rfl hpend ⟨hat.calm, hat.running, rfl⟩ (by decide))
  exact h5.trans (leads_writeOb hp (k := 6) ⟨hat.calm, hat.running, rfl⟩ rfl rfl
    ⟨hat.calm, hat.running, rfl⟩ (by decide))

end

/-! ## The erase, and the stores -/

/-- An option write between two stores: the block holds `o`, EOP is `e`, and OBPG is set. -/
abbrev State.writing (x : State) (o : OptionBytes) (e : Bool) (k : Nat) : State :=
  { x.idled with ob := o, eop := e, rt := statrWord { x.idled with eop := e }, obpg := true, spc := k }

section
variable {op : Op} {x : State} (hp : progOf op = writeObSteps) (hq : x.seqOp = some op) (hc : x.cfg.Ok)
include hp hq hc

/-- OBER is set. -/
theorem leads_setOber : Leads op 1 { x.idled with spc := 7 } { x.idled with ober := true, spc := 8 } :=
  leads_writeOb hp (k := 7) ⟨rfl, hq, rfl⟩ rfl
    (ctlrSet_ober (s := { x.idled with spc := 8 }) hc rfl rfl rfl rfl rfl rfl 7 25) ⟨rfl, hq, rfl⟩ (by decide)

/-- From the first wait after the start bit on: OBER is cleared and OBPG is set. -/
theorem leads_setObpg (o : OptionBytes) (e : Bool) (r : Word) :
    Leads op 3 { x.idled with ob := o, eop := e, rt := r, ober := true, spc := 9 } (x.writing o e 12) := by
  let w : Word := statrWord { x.idled with eop := e }
  have hspin := leads_writeOb hp (k := 9) (s := { x.idled with ob := o, eop := e, rt := r, ober := true, spc := 9 })
    ⟨rfl, hq, rfl⟩ rfl (spinNotBusy_idle
      (s := { x.idled with ob := o, eop := e, rt := r, ober := true, spc := 10 }) hc rfl 9 25)
    ⟨rfl, hq, rfl⟩ (by decide)
  obtain ⟨-, -, -, hclr⟩ := ctlrClr_mode
    (s := { x.idled with ob := o, eop := e, rt := w, ober := true, spc := 11 }) hc rfl rfl rfl
    (show modeCount false false false true ≤ 1 by decide) 10 25
  have hset := ctlrSet_obpg (s := { x.idled with ob := o, eop := e, rt := w, spc := 12 }) hc rfl rfl rfl rfl rfl
    rfl 11 25
  exact (hspin.trans (leads_writeOb hp (k := 10) ⟨rfl, hq, rfl⟩ rfl hclr ⟨rfl, hq, rfl⟩ (by decide))).trans
    (leads_writeOb hp (k := 11) ⟨rfl, hq, rfl⟩ rfl hset ⟨rfl, hq, rfl⟩ (by decide))

/-- With the option lock open the start bit erases the block. -/
theorem leads_obErase (hl : x.obl = false) :
    Leads op 6 { x.idled with spc := 7 } (x.writing .erased true 12) := by
  have hstart := (ctlrSet_strt (s := { x.idled with ober := true, spc := 9 }) hc rfl rfl
    (show modeCount false false false true ≤ 1 by decide) 8 25).trans
    (startErase_block rfl rfl hl)
  have hstarted := (leads_setOber hp hq hc).trans
    (leads_writeOb hp (k := 8) ⟨rfl, hq, rfl⟩ rfl hstart ⟨rfl, hq, rfl⟩ (by decide))
  let b : State := { x.idled with ober := true, spc := 9, pend := .obErase, bsy := true, strt := true }
  have heng : engStep { b with rt := statrWord b } = { x.idled with
      ob := .erased, eop := true, rt := statrWord b, ober := true, spc := 9 } := engStep_obErase rfl
  have hwait :=
    (leads_spin_busy (s := b) (k := 9) ⟨rfl, hq, rfl⟩ hc (writeOb_step hp rfl) rfl (by simp [b])).to_eq heng
  exact (hstarted.trans hwait).trans (leads_setObpg hp hq hc .erased true _)

/-- With the option lock closed the start bit starts nothing. -/
theorem leads_obErase_dropped (hl : x.obl = true) :
    Leads op 5 { x.idled with spc := 7 } (x.writing x.ob x.eop 12) := by
  have hstart := (ctlrSet_strt (s := { x.idled with ober := true, spc := 9 }) hc rfl rfl
    (show modeCount false false false true ≤ 1 by decide) 8 25).trans
    (startErase_nothing rfl (.inr hl))
  exact ((leads_setOber hp hq hc).trans
    (leads_writeOb hp (k := 8) ⟨rfl, hq, rfl⟩ rfl hstart ⟨rfl, hq, rfl⟩ (by decide))).trans
    (leads_setObpg hp hq hc x.ob x.eop x.rt)

section
variable {o : OptionBytes} {k : Nat} {c : CellId} {f : State → Half}
  (hm : writeObSteps[k]? = some (actOrFault fun s => writeOb c (f s) s))
  (hm' : writeObSteps[k + 1]? = some spinNotBusy) (hk : k < 23)
include hm hm' hk

/-- With the option lock open a store programs its cell, which the erase left erased. -/
theorem leads_obStore (hl : x.obl = false) (he : o.cell c = erased16) {o' : OptionBytes}
    (ho : o.set c (storedWord x.cfg (f (x.writing o true (k + 1)))) = o') :
    Leads op 3 (x.writing o true k) (x.writing o' true (k + 2)) := by
  subst ho
  let v : Half := f (x.writing o true (k + 1))
  have hstored := leads_writeOb hp (s := x.writing o true k) (k := k) ⟨rfl, hq, rfl⟩ hm
    (writeOb_accepted (id := c) (v := v) (s := x.writing o true (k + 1)) rfl rfl hl rfl) ⟨rfl, hq, rfl⟩ (by omega)
  let b : State := { x.writing o true (k + 1) with pend := .obProg c v, bsy := true }
  have heng : engStep { b with rt := statrWord b } =
      { x.writing (o.set c (storedWord x.cfg v)) true (k + 1) with rt := statrWord b } :=
    (engStep_obProg (c := c) (v := v) rfl).trans (congrArg finishPending (completeObProg_erased he))
  have hwait :=
    (leads_spin_busy (s := b) (k := k + 1) ⟨rfl, hq, rfl⟩ hc (writeOb_step hp hm') rfl (by simp [b])).to_eq heng
  exact (hstored.trans hwait).trans (leads_writeOb hp (k := k + 1) ⟨rfl, hq, rfl⟩ hm'
    (spinNotBusy_idle (s := { x.writing (o.set c (storedWord x.cfg v)) true (k + 2) with rt := statrWord b })
      hc rfl (k + 1) 25) ⟨rfl, hq, rfl⟩ (by omega))

/-- With the option lock closed a store is dropped. -/
theorem leads_obStore_dropped (hl : x.obl = true) :
    Leads op 2 (x.writing x.ob x.eop k) (x.writing x.ob x.eop (k + 2)) := by
  have hstored := leads_writeOb hp (s := x.writing x.ob x.eop k) (k := k) ⟨rfl, hq, rfl⟩ hm
    (writeOb_dropped (s := x.writing x.ob x.eop (k + 1)) rfl (.inr (.inl hl))) ⟨rfl, hq, rfl⟩ (by omega)
  exact hstored.trans (leads_writeOb hp (k := k + 1) ⟨rfl, hq, rfl⟩ hm'
    (spinNotBusy_idle (s := x.writing x.ob x.eop (k + 2)) hc rfl (k + 1) 25) ⟨rfl, hq, rfl⟩ (by omega))

end

end

/-- An option write ends with the clearing of OBPG. -/
theorem exec_ends_writing {i : Instr} {c : Nat} {s x : State} {o : OptionBytes} {e : Bool} (hs : s.Calm)
    (hp : progOf i.op = writeObSteps) (hr : hasResult i.op = false) (hq : x.seqOp = some i.op) (hok : x.cfg.Ok)
    (hlead : Leads i.op c (s.accept i.op i.a i.d) (x.writing o e 24)) (hc : c ≤ 63) :
    exec i s = .next { x.idled with
      ob := o, eop := e, rt := statrWord { x.idled with eop := e }, spc := 25
      seqOp := none, response := some .done } := by
  have hlen := writeOb_length hp
  obtain ⟨-, -, hclr, -⟩ := ctlrClr_mode (s := x.writing o e 25) hok rfl rfl rfl
    (show modeCount false false true false ≤ 1 by decide) 24 25
  rw [exec_ends hs hlead hc ⟨rfl, hq, rfl⟩ (writeOb_step hp rfl) (by rw [hlen]; exact hclr) hlen.le, finish_done hr]

/-- The registers of an option write at its erase. -/
abbrev State.writeObStart (s : State) (i : Instr) : State :=
  ({ s.accept i.op i.a i.d with rt := statrWord s, spc := 2 } : State).snapshot

theorem storedWord_encodeCell (c : Config) (b : Byte) : storedWord c (encodeCell b) = encodeCell b := by
  rw [storedWord, lowByte_encodeCell, ite_self]

/-- What an option write leaves in the block: the four other cells stored back, the two data cells encoded. -/
abbrev OptionBytes.rewritten (o : OptionBytes) (c : Config) (hi lo : Byte) : OptionBytes :=
  { user := storedWord c o.user, rdpr := storedWord c o.rdpr
    wrpr1 := storedWord c o.wrpr1, wrpr0 := storedWord c o.wrpr0
    data1 := encodeCell hi, data0 := encodeCell lo }

section
variable {i : Instr} {s : State} (hp : progOf i.op = writeObSteps) (hr : hasResult i.op = false)
  (hc : s.cfg.Ok)
include hp hc

theorem leads_toErase : Leads i.op 7 (s.idled.accept i.op i.a i.d)
    { (s.idled.writeObStart i).idled with spc := 7 } := by
  have hlen := writeOb_length hp
  exact (leads_opening (s := s.idled.accept i.op i.a i.d) (at_accept rfl) hc
    (writeOb_step hp rfl) (writeOb_step hp rfl) (by omega) rfl rfl).trans
    (leads_snapshot hp (s := { s.idled.accept i.op i.a i.d with rt := statrWord s.idled, spc := 2 })
      ⟨rfl, rfl, rfl⟩ rfl)

include hr

/-- An option write with both locks open: the erase, and six stores each into an erased cell. -/
theorem exec_writeOb_open (hl : s.obl = false) :
    ∃ r, exec i s.idled = .next { s.idled.ended i.a i.d 25 .done with
      rt := r, rs0 := s.ob.user, rs1 := s.ob.rdpr, rs2 := s.ob.wrpr1, rs3 := s.ob.wrpr0
      rb1 := highByte (lowHalf i.d), rb0 := lowByte (lowHalf i.d), eop := true
      ob := s.ob.rewritten s.cfg (highByte (lowHalf i.d)) (lowByte (lowHalf i.d)) } := by
  let x : State := s.idled.writeObStart i
  have h12 := (leads_toErase hp hc).trans (leads_obErase hp (x := x) rfl hc hl)
  have h14 := h12.trans (leads_obStore hp (x := x) rfl hc
    (c := .user) (f := fun s => s.rs0) rfl rfl (by decide) hl rfl rfl)
  have h16 := h14.trans (leads_obStore hp (x := x) rfl hc
    (c := .rdpr) (f := fun s => s.rs1) rfl rfl (by decide) hl rfl rfl)
  have h18 := h16.trans (leads_obStore hp (x := x) rfl hc
    (c := .wrpr0) (f := fun s => s.rs3) rfl rfl (by decide) hl rfl rfl)
  have h20 := h18.trans (leads_obStore hp (x := x) rfl hc
    (c := .wrpr1) (f := fun s => s.rs2) rfl rfl (by decide) hl rfl rfl)
  have h22 := h20.trans (leads_obStore hp (x := x) rfl hc
    (c := .data1) (f := fun s => encodeCell s.rb1) rfl rfl (by decide) hl rfl
    (congrArg _ (storedWord_encodeCell x.cfg x.rb1)))
  have h24 := h22.trans (leads_obStore hp (x := x) rfl hc
    (c := .data0) (f := fun s => encodeCell s.rb0) rfl rfl (by decide) hl rfl
    (congrArg _ (storedWord_encodeCell x.cfg x.rb0)))
  exact ⟨_, exec_ends_writing rfl hp hr (x := x) rfl hc h24 (by decide)⟩

/-- An option write with the option lock closed: the erase and the six stores are dropped. -/
theorem exec_writeOb_closed (hl : s.obl = true) :
    ∃ r, exec i s.idled = .next { s.idled.ended i.a i.d 25 .done with
      rt := r, rs0 := s.ob.user, rs1 := s.ob.rdpr, rs2 := s.ob.wrpr1, rs3 := s.ob.wrpr0
      rb1 := highByte (lowHalf i.d), rb0 := lowByte (lowHalf i.d) } := by
  let x : State := s.idled.writeObStart i
  have h12 := (leads_toErase hp hc).trans (leads_obErase_dropped hp (x := x) rfl hc hl)
  have h14 := h12.trans (leads_obStore_dropped hp (x := x) rfl hc
    (c := .user) (f := fun s => s.rs0) rfl rfl (by decide) hl)
  have h16 := h14.trans (leads_obStore_dropped hp (x := x) rfl hc
    (c := .rdpr) (f := fun s => s.rs1) rfl rfl (by decide) hl)
  have h18 := h16.trans (leads_obStore_dropped hp (x := x) rfl hc
    (c := .wrpr0) (f := fun s => s.rs3) rfl rfl (by decide) hl)
  have h20 := h18.trans (leads_obStore_dropped hp (x := x) rfl hc
    (c := .wrpr1) (f := fun s => s.rs2) rfl rfl (by decide) hl)
  have h22 := h20.trans (leads_obStore_dropped hp (x := x) rfl hc
    (c := .data1) (f := fun s => encodeCell s.rb1) rfl rfl (by decide) hl)
  have h24 := h22.trans (leads_obStore_dropped hp (x := x) rfl hc
    (c := .data0) (f := fun s => encodeCell s.rb0) rfl rfl (by decide) hl)
  exact ⟨_, exec_ends_writing rfl hp hr (x := x) rfl hc h24 (by decide)⟩

end

/-- The two option writes are one micro-program. -/
theorem writeOb_cases_mk {a d : Word} {mk : Word → Word → Instr} (h : mk ∈ [Instr.writeOb16, Instr.writeOb8x2]) :
    progOf (mk a d).op = writeObSteps ∧ (mk a d).a = a ∧ (mk a d).d = d ∧ hasResult (mk a d).op = false := by
  simp only [List.mem_cons, List.not_mem_nil, or_false] at h
  rcases h with rfl | rfl <;> exact ⟨rfl, rfl, rfl, rfl⟩

/-- Settles O59: with the option lock open and with it closed. -/
theorem writeObRewritesBlock : Obligations.WriteObRewritesBlock := by
  intro a d s h hs mk hmk st e
  obtain ⟨hp, hia, hid, hr⟩ := writeOb_cases_mk (a := a) (d := d) hmk
  generalize mk a d = i at *
  subst hia hid
  obtain ⟨s, rfl⟩ := exists_idled h hs
  refine ⟨fun hl => ?_, fun hl => ?_⟩
  · have hrun := exec_writeOb_open hp hr h.cfg_ok hl
    rw [highByte_lowHalf, lowByte_lowHalf] at hrun
    exact hrun
  · have hrun := exec_writeOb_closed hp hr h.cfg_ok hl
    rw [highByte_lowHalf, lowByte_lowHalf] at hrun
    exact hrun

/-- A valid cell is stored as it is, in either setting. -/
theorem storedWord_of_valid (c : Config) {w : Half} (h : validCell w = true) : storedWord c w = w := by
  rw [storedWord, encodeCell_lowByte_of_valid h, ite_self]

/-- The low half of a word is its two low bytes. -/
theorem low_bytes_append (d : Word) : (d.extractLsb' 8 8 ++ d.extractLsb' 0 8 : Half) = d.extractLsb' 0 16 :=
  BitVec.extractLsb'_append_extractLsb'_eq_extractLsb' rfl

/-- Settles O60: the four cells are stored back as they are, and the two data fields decode to their bytes. -/
theorem writeObPreservesOtherFields : Obligations.WriteObPreservesOtherFields := by
  intro a d a' d' s h hs hl hv0 hv1 hv2 hv3 mk hmk
  obtain ⟨hopen, -⟩ := writeObRewritesBlock a d s h hs mk hmk
  obtain ⟨r, hrun⟩ := hopen hl
  obtain ⟨s, rfl⟩ := exists_idled h hs
  refine ⟨_, _, hrun, readData16JoinsBothFields a' d' _ rfl, ?_, ?_⟩
  · intro c hmem
    simp only [List.mem_cons, List.not_mem_nil, or_false] at hmem
    rcases hmem with rfl | rfl | rfl | rfl
    · exact congrArg decodeCell (storedWord_of_valid s.cfg hv0)
    · exact congrArg decodeCell (storedWord_of_valid s.cfg hv1)
    · exact congrArg decodeCell (storedWord_of_valid s.cfg hv2)
    · exact congrArg decodeCell (storedWord_of_valid s.cfg hv3)
  · have hjoin : decodeCell (encodeCell (d.extractLsb' 8 8)) ++ decodeCell (encodeCell (d.extractLsb' 0 8)) =
        d.extractLsb' 0 16 := by
      rw [decodeCell_encodeCell, decodeCell_encodeCell, low_bytes_append]
    exact congrArg (fun v : Half => some (Response.value (v.setWidth 32))) hjoin

end Sys2Proof.Machine
end

section
/-! PROOFS. A stray mode bit (spec R175, R180, R204): the first mode write of a command faults. -/

namespace Sys2Proof.Machine

/-- Two different mode bits set are more than one. -/
theorem modeCount_two {f : Mode → Bool} {m m' : Mode} (hne : m' ≠ m) (h : f m = true) (h' : f m' = true) :
    modeCount (f .pg) (f .per) (f .obpg) (f .ober) > 1 := by
  cases m <;> cases m' <;> simp_all [modeCount] <;> omega

/-- Setting a mode bit while another is set faults. -/
theorem ctlrSet_stray {m m' : Mode} {s : State} (hc : s.cfg.Ok) (hb : s.bsy = false) (hl : s.lock = false)
    (hne : m' ≠ m) (hset : s.mode m' = true) (k n : Nat) : ctlrSet m.bit k n s = .error .illegalCtlr := by
  have hbits (md : Mode) : bitOf (ctlrWord s ||| maskOf (m.bit s.cfg)) (md.bit s.cfg) =
      (s.mode md || decide (md.bit s.cfg = m.bit s.cfg)) := by
    rw [bitOf_or, bitOf_ctlrWord_mode hc, bitOf_maskOf, decide_eq_true (mode_bit_lt hc md), Bool.true_and]
  refine regWriteCtlr_illegal hb hl (.inr ?_)
  exact modeCount_two (f := fun md => bitOf (ctlrWord s ||| maskOf (m.bit s.cfg)) (md.bit s.cfg)) hne
    (by simp [hbits]) (by simp [hbits, hset])

/-- A run that comes to the setting of a mode bit while another is set faults. -/
theorem exec_stray {i : Instr} {c k : Nat} {s u : State} {m m' : Mode} (hs : s.Calm)
    (hlead : Leads i.op c (s.accept i.op i.a i.d) u) (hc : c ≤ 63) (hat : At i.op k u)
    (hm : (progOf i.op)[k]? = some (ctlrSet m.bit)) (hok : u.cfg.Ok) (hb : u.bsy = false) (hl : u.lock = false)
    (hne : m' ≠ m) (hset : u.mode m' = true) : exec i s = .fault .illegalCtlr :=
  exec_faults hs hlead hc hat hm
    (ctlrSet_stray (s := { u with spc := k + 1 }) hok hb hl hne (by cases m' <;> exact hset) k _)

section
variable {i : Instr} {s : State} {m' : Mode} (hok : s.cfg.Ok) (hs : s.Calm) (hr : s.Rested)
  (hl : s.lock = false) (hset : s.mode m' = true)
include hok hs hr hl hset

/-- A command whose third micro-step sets a mode bit. -/
theorem exec_stray_third {m : Mode} (h0 : (progOf i.op)[0]? = some guardLock)
    (h1 : (progOf i.op)[1]? = some spinNotBusy) (h2 : (progOf i.op)[2]? = some (ctlrSet m.bit)) (hne : m' ≠ m) :
    exec i s = .fault .illegalCtlr := by
  obtain ⟨hlen, -⟩ := List.getElem?_eq_some_iff.mp h2
  exact exec_stray hs (leads_opening (at_accept hs) hok h0 h1 hlen hl hr.1) (by decide) ⟨hs, rfl, rfl⟩ h2 hok hr.1
    hl hne (by cases m' <;> exact hset)

/-- An option write sets OBER after its snapshot. -/
theorem exec_stray_writeOb (hp : progOf i.op = writeObSteps) (hne : m' ≠ .ober) :
    exec i s = .fault .illegalCtlr := by
  have hlen := writeOb_length hp
  have hlead := (leads_opening (s := s.accept i.op i.a i.d) (at_accept hs) hok (writeOb_step hp rfl)
    (writeOb_step hp rfl) (by omega) hl hr.1).trans
    (leads_snapshot hp (s := { s.accept i.op i.a i.d with rt := statrWord s, spc := 2 }) ⟨hs, rfl, rfl⟩ hr.2.1)
  exact exec_stray hs hlead (by decide) (k := 7) ⟨hs, rfl, rfl⟩ (m := .ober) (writeOb_step hp rfl) hok hr.1 hl
    hne (by cases m' <;> exact hset)

end

/-- Settles O47: the first mode write finds another bit set. -/
theorem strayModeBitFaults : Obligations.StrayModeBitFaults := by
  intro a d s hok hs hr hl _
  refine ⟨fun h => ?_, fun h mk hmk => ?_, fun h mk hmk => ?_⟩
  · have hstray {m' : Mode} (hset : s.mode m' = true) (hne : m' ≠ .per) :
        exec (.erasePage a d) s = .fault .illegalCtlr :=
      exec_stray_third (i := .erasePage a d) (m := .per) hok hs hr hl hset rfl rfl rfl hne
    rcases h with h | h | h
    · exact hstray (m' := .pg) h (by simp)
    · exact hstray (m' := .obpg) h (by simp)
    · exact hstray (m' := .ober) h (by simp)
  · obtain ⟨-, rest, hd⟩ := program_cases (a := a) (d := d) hmk
    have hstray {m' : Mode} (hset : s.mode m' = true) (hne : m' ≠ .pg) :
        exec (mk a d) s = .fault .illegalCtlr :=
      exec_stray_third (m := .pg) hok hs hr hl hset (getElem?_of_drop hd (j := 0) rfl)
        (getElem?_of_drop hd (j := 1) rfl) (getElem?_of_drop hd (j := 2) rfl) hne
    rcases h with h | h | h
    · exact hstray (m' := .per) h (by simp)
    · exact hstray (m' := .obpg) h (by simp)
    · exact hstray (m' := .ober) h (by simp)
  · obtain ⟨hp, -⟩ := writeOb_cases_mk (a := a) (d := d) hmk
    rcases h with h | h | h
    · exact exec_stray_writeOb (m' := .pg) hok hs hr hl h hp (by simp)
    · exact exec_stray_writeOb (m' := .per) hok hs hr hl h hp (by simp)
    · exact exec_stray_writeOb (m' := .obpg) hok hs hr hl h hp (by simp)

end Sys2Proof.Machine
end
